-- ==== Sys2Proof/Word.lean ====
section
/-! DEFINITION. The word types of the block (00_scope.md R9, R10): bit vectors of fixed width, datagrams as byte strings. -/

namespace Sys2Proof

/-- One byte of a datagram, a frame or a buffer. -/
abbrev Byte := BitVec 8

/-- A 16-bit wire field, a gate sample or an LFSR state. -/
abbrev Half := BitVec 16

/-- A 32-bit CSR word, counter or bus address. -/
abbrev Word := BitVec 32

/-- A sequence bit. -/
abbrev Bit := BitVec 1

/-- A datagram is a byte string (R10). -/
abbrev Datagram := List Byte

end Sys2Proof
end

