-- ==== Sys2Proof/Config.lean ====
section
/-! DEFINITION. The implementation parameters of 00_scope.md R7: the fixed ones as constants, the OPEN ones as the
record Params that the model takes as an argument (State carries it and no step writes it), and the free values. -/

namespace Sys2Proof

/-- `MAX_PAYLOAD` (R7). -/
@[simp] abbrev maxPayload : Nat := 80

/-- `HDR_BYTES` (R7). -/
@[simp] abbrev hdrBytes : Nat := 4

/-- `RXBUF_BYTES` (R7, 92_eei_decisions.md D24); TXBUF has the same size (10_state.md R25). -/
@[simp] abbrev bufBytes : Nat := 84

/-- `P_ONE` (R7): the loss probability is `P / 65536`. -/
@[simp] abbrev pOne : BitVec 17 := 0x10000#17

/-- `LFSR_MASK` (R7). -/
@[simp] abbrev lfsrMask : Half := 0xB400#16

/-- `LFSR_INIT` (R7). -/
@[simp] abbrev lfsrInit : Half := 0xACE1#16

/-- Size of the CSR window in bytes (10_state.md R27). -/
@[simp] abbrev windowBytes : Nat := 256

/-- OPEN parameter `CHANNEL_MODE` (R7, 20_memory.md R68). -/
inductive ChannelMode where
  | fifoReliable
  | fifoLossy
  | unordered
  deriving DecidableEq, Repr

/-- OPEN parameter `ZERO_TIMEOUT` (R7, 42_sender.md R171). -/
inductive ZeroTimeout where
  | never
  | nextTick
  deriving DecidableEq, Repr

/-- OPEN parameter `NOTFOUND_MSG` (R7): any byte string of length 1 to 80. -/
structure NotFoundMsg where
  bytes : List Byte
  pos   : 1 ≤ bytes.length
  short : bytes.length ≤ 80
  deriving DecidableEq, Repr

/-- The default message, the 14 ASCII bytes of FILE NOT FOUND (R7, R10). -/
def defaultMsg : NotFoundMsg :=
  ⟨[0x46#8, 0x49#8, 0x4C#8, 0x45#8, 0x20#8, 0x4E#8, 0x4F#8, 0x54#8, 0x20#8, 0x46#8, 0x4F#8, 0x55#8, 0x4E#8, 0x44#8],
    by decide, by decide⟩

/-- The OPEN parameters (R7, 20_memory.md R64). Plain data in State, written by no step (log 8).
DESIGN CHOICE (log 24): the spec gives no width of CSR_BASE or of a bus address; both are 32 bits here. -/
structure Params where
  channelMode : ChannelMode
  zeroTimeout : ZeroTimeout
  notFoundMsg : NotFoundMsg
  csrBase     : Word
  deriving DecidableEq, Repr

/-- DESIGN CHOICE (log 8): the parameters that State.reset carries. UNORDERED and NEXT_TICK allow every step the other
values allow, and NOTFOUND_MSG is the spec's default. -/
def Params.atReset : Params :=
  ⟨.unordered, .nextTick, defaultMsg, 0#32⟩

/-- FREE VALUE (logs 7 and 14): the bytes that a reset leaves `any` (70_reset_and_hazards.md R310) and those that a truncated
frame leaves `any` (40_codec.md R123), drawn with a counter. It has no body, so no proof can lean on a value of it. -/
opaque Config.freeByte : Nat → Byte

/-- FREE VALUE (log 23): what a sink holds once it has answered ERR (20_memory.md R67; 93_implementation_defined.md U12),
drawn with the same counter. It has no body. -/
opaque Config.freeSink : Nat → List Byte

end Sys2Proof
end

