-- ==== Sys2Proof/Ports.lean ====
section
/-! DEFINITION. What stands at the block's ports (20_memory.md R65): the answers of the environment agents, the CSR
registers by name, bus widths, and Port, the place at which a step's bits are presented together with the part of
the joint step that the environment takes. -/

namespace Sys2Proof

/-- The two engines (00_scope.md R3). -/
inductive Engine where
  | se
  | re
  deriving DecidableEq, Repr

/-- The two channels: CHD carries data frames, CHA carries ACKs (20_memory.md R68). -/
inductive Chan where
  | chd
  | cha
  deriving DecidableEq, Repr

/-- The answer of a partner agent to a Send or a SnkWrite (00_scope.md R11). -/
inductive Resp where
  | ok
  | err
  deriving DecidableEq, Repr

/-- The answer of a channel to a Recv (20_memory.md R68): ERR, or element `i` of its sequence, removed or kept. -/
inductive Recv where
  | err
  | dgram (i : Nat) (keep : Bool)
  deriving DecidableEq, Repr

/-- The width of a CSR bus access in bytes (20_memory.md R62). -/
inductive Width where
  | b1
  | b2
  | b4
  | b8
  deriving DecidableEq, Repr

/-- The configuration registers, the ones CFG_WRITE stores into (45_host_commands.md R258). -/
inductive CfgReg where
  | sCfg | sLoss | sSeed | sIrq
  | rCfg | rLoss | rSeed | rIrq
  deriving DecidableEq, Repr

/-- The registers of the CSR map (10_state.md R28). -/
inductive Csr where
  | ctrl (e : Engine)
  | cfg (r : CfgReg)
  | sStatus | sToSec | sToSub | sTmrLo | sTmrHi | sLfsr
  | sGenerated | sTxAttempts | sTxOk | sDropped | sAcked | sTimeouts
  | rStatus | rLfsr
  | rAccepted | rDuplicates | rBytes | rAckTx | rAckDropped
  deriving DecidableEq, Repr

/-- The response of a HOST access (20_memory.md R60 to R62). -/
inductive BusResp where
  | readOk (v : Word)
  | writeOk
  | err
  deriving DecidableEq, Repr

/-- The environment's part of an SE step (20_memory.md R65): SRC's answer, the sample SMPS offers and CHD's answer to the
Send, CHA's answer to the Recv, the expiry, or CHD's answer alone. -/
inductive SeAnswer where
  | src (len : BitVec 7) (b : List Byte)
  | attempt (smp : Option Half) (r : Resp)
  | recv (rx : Recv)
  | expired
  | put (r : Resp)
  deriving DecidableEq, Repr

/-- The environment's part of an RE step. The two R_WAIT rules R201 and R202 are told apart by `recv` and `recvData`. -/
inductive ReAnswer where
  | recv (rx : Recv)
  | recvData (i : Nat) (keep : Bool)
  | sink (r : Resp)
  | ack (smp : Option Half) (r : Resp)
  deriving DecidableEq, Repr

/-- DESIGN CHOICE (log 2): the format of opcode_table.json that a word is read in, with the environment's part of the
joint step. The bits that the table's match and mask speak of stand in the bytes beside it:
the datagram at RXD and RXA, the frame at TXD, the ACK at TXA, the written value at the CSR port, the state register.
DESIGN CHOICE (log 24): a bus address has 32 bits, a width that no rule gives. -/
inductive Port where
  | rxd (keep : Bool)
  | rxa (keep : Bool)
  | txd (smp : Option Half) (r : Resp)
  | txdEot (r : Resp)
  | txdNotice (r : Resp)
  | txa (smp : Option Half) (r : Resp)
  | csrWrite (addr : Word) (w : Width)
  | csrRead (addr : Word) (w : Width)
  | seStep (a : SeAnswer)
  | reStep (a : ReAnswer)
  | tick (k : Nat)
  deriving DecidableEq, Repr

/-- One event of a run (log 1): a word at a port, or a move of the environment that is no row of the opcode table
(log 19): a channel deletes an element (20_memory.md R68), the hard reset (70_reset_and_hazards.md R310), and the fresh
channels and sink that precede a session (R316). -/
inductive Event where
  | word (p : Port) (bytes : List Byte)
  | lose (c : Chan) (i : Nat)
  | hardReset
  | emptyChannels
  | freshSink
  deriving DecidableEq, Repr

end Sys2Proof
end

