-- ==== Sys2Proof/Syntax.lean ====
section
/-! DEFINITION. The instructions: one constructor per row of spec/opcode_table.json (30_encoding.md R90). Each is one
atomic step (00_scope.md R12) together with what the environment answers in that step. -/

namespace Sys2Proof

/-- One constructor per row of the opcode table.
`keep` says that the channel delivers the datagram without removing it (20_memory.md R68). -/
inductive Instr where
  /-- FRAME_SHORT: RE takes the datagram `d` from CHD, `n < 4` (R98, R201). -/
  | frameShort (d : Datagram) (keep : Bool)
  /-- FRAME_EOT: RE takes `d`, whose length field is 0 (R98, R201). -/
  | frameEot (d : Datagram) (keep : Bool)
  /-- FRAME_OVERLONG: RE takes `d`, whose length field is above 80 (R98, R201). -/
  | frameOverlong (d : Datagram) (keep : Bool)
  /-- FRAME_DATA_MATCH: RE takes the data frame `d`, whose sequence bit is the expected one (R98, R202). -/
  | frameDataMatch (d : Datagram) (keep : Bool)
  /-- FRAME_DATA_DUP: RE takes the data frame `d`, whose sequence bit is not the expected one (R98, R202). -/
  | frameDataDup (d : Datagram) (keep : Bool)
  /-- ACK_MALFORMED: SE takes `d` from CHA, not 2 bytes long (R99, R166). -/
  | ackMalformed (d : Datagram) (keep : Bool)
  /-- ACK_MATCH: SE takes the ACK `d`, equal to `zext_16(SE.SEQ)` (R99, R166). -/
  | ackMatch (d : Datagram) (keep : Bool)
  /-- ACK_MISMATCH: SE takes the ACK `d`, not equal to `zext_16(SE.SEQ)` (R99, R166). -/
  | ackMismatch (d : Datagram) (keep : Bool)
  /-- TX_DATA: SE emits the data frame of `seq` and `payload` on TXD (R92, R164, R165). -/
  | txData (seq : Bit) (payload : List Byte) (smp : Option Half) (r : Resp)
  /-- TX_EOT: SE emits the EOT frame with sequence bit `seq` (R93, R168). -/
  | txEot (seq : Bit) (r : Resp)
  /-- TX_NOTFOUND: SE emits the not-found notice, whose length field is `len` (R95, R169). -/
  | txNotfound (len : Half) (r : Resp)
  /-- TX_ACK: RE emits the ACK `a` on TXA (R94, R204). -/
  | txAck (a : Half) (smp : Option Half) (r : Resp)
  /-- S_START: a write of `hi ++ 01` to S_CTRL (R101, R253). -/
  | sStart (hi : BitVec 30)
  /-- S_SOFT_RESET: a write of `hi ++ 1 ++ b0` to S_CTRL (R101, R255). -/
  | sSoftReset (hi : BitVec 30) (b0 : Bit)
  /-- R_START: a write of `hi ++ 01` to R_CTRL (R101, R254). -/
  | rStart (hi : BitVec 30)
  /-- R_SOFT_RESET: a write of `hi ++ 1 ++ b0` to R_CTRL (R101, R256). -/
  | rSoftReset (hi : BitVec 30) (b0 : Bit)
  /-- CTRL_NOP: a write of `hi ++ 00` to the CTRL register of an engine (R101). -/
  | ctrlNop (e : Engine) (hi : BitVec 30)
  /-- CFG_WRITE: a write of `v` to a configuration register (R258). -/
  | cfgWrite (reg : CfgReg) (v : Word)
  /-- RO_WRITE: a write with no effect, to a read-only or unmapped offset (R252), or one that is not admitted (R62). -/
  | roWrite (off : Word) (w : Width) (v : Word)
  /-- CSR_READ: a read of width `w` at the offset `off` (R251, R62). -/
  | csrRead (off : Word) (w : Width)
  /-- SE_READ_END: SRC answers `(len, b)` with `len = 0` or `len > 80` (R163). -/
  | seReadEnd (len : BitVec 7) (b : List Byte)
  /-- SE_READ_CHUNK: SRC answers with the chunk `b`, 1 to 80 bytes (R164). -/
  | seReadChunk (b : List Byte)
  /-- SE_SEND: one transmission attempt, SMPS offering `smp`, CHD answering `r` (R165). -/
  | seSend (smp : Option Half) (r : Resp)
  /-- SE_WAIT_RX: SE takes CHA's answer in S_WAIT (R166). -/
  | seWaitRx (rx : Recv)
  /-- SE_WAIT_TIMEOUT: the bounded wait has expired (R167). -/
  | seWaitTimeout
  /-- SE_EOT: SE sends the EOT frame, CHD answering `r` (R168). -/
  | seEot (r : Resp)
  /-- SE_NOTFOUND: SE sends the not-found notice, CHD answering `r` (R169). -/
  | seNotfound (r : Resp)
  /-- TICK: `k` pulses of the timebase, `k` any number (R170, R102; log 21). -/
  | tick (k : Nat)
  /-- RE_WAIT: RE takes CHD's answer in R_WAIT, an ERR, an EOT or a malformed frame (R201). -/
  | reWait (rx : Recv)
  /-- RE_WAIT_DATA: RE takes a data frame in R_WAIT, element `i` of CHD (R202). -/
  | reWaitData (i : Nat) (keep : Bool)
  /-- RE_DELIVER: RE hands the payload to SNK, which answers `r` (R203). -/
  | reDeliver (r : Resp)
  /-- RE_ACK: RE generates the acknowledgment, SMPR offering `smp`, CHA answering `r` (R204). -/
  | reAck (smp : Option Half) (r : Resp)
  deriving DecidableEq, Repr

end Sys2Proof
end

