-- ==== Sys2Proof/Decode.lean ====
section
/-! DEFINITION. The frame codec (40_codec.md R120 to R125), the decoder classes (30_encoding.md R98, R99), the CSR map
(10_state.md R28), the decoder of port words, and after it the encoder. -/

namespace Sys2Proof

/-! ### Byte order (20_memory.md R71) and header fields (30_encoding.md R91, R96) -/

/-- `be16` of 00_scope.md R10. -/
def be16 (v : Half) : List Byte := [v.extractLsb' 8 8, v.extractLsb' 0 8]

/-- `BE16(b[i], b[i+1])` of R10. Every caller has made sure that both bytes are there. -/
def be16At (b : List Byte) (i : Nat) : Half := b.getD i 0#8 ++ b.getD (i + 1) 0#8

/-- The length field `L` of a frame (R91). -/
def lenField (b : List Byte) : Nat := (be16At b 0).toNat

/-- The sequence field `Q` of a frame (R91). -/
def seqField (b : List Byte) : Half := be16At b 2

/-- The bit of a 16-bit sequence field that is significant, `Q[0]` (R96). -/
def seqBit (q : Half) : Bit := q.extractLsb' 0 1

/-- A CSR value as four bytes of a port word, most significant first (log 2; the bus itself has no byte order, R63). -/
def be32 (v : Word) : List Byte := [v.extractLsb' 24 8, v.extractLsb' 16 8, v.extractLsb' 8 8, v.extractLsb' 0 8]

/-- What RE keeps of a datagram at RXD: the first 84 bytes (R70). -/
def rxKept (d : Datagram) : List Byte := d.take bufBytes

/-! ### The codec -/

/-- The failures of the codec (40_codec.md). -/
inductive CodecError where
  | payloadTooLarge
  | malformedFrame
  | malformedAck
  deriving DecidableEq, Repr

/-- A decoded frame (R122). -/
structure Frame where
  len     : Half
  seq     : Half
  payload : List Byte
  deriving DecidableEq, Repr

/-- The bytes of a frame (R92, R93). -/
def frameBytes (s : Bit) (p : List Byte) : List Byte :=
  be16 (BitVec.ofNat 16 p.length) ++ be16 (s.setWidth 16) ++ p

/-- `encode` (R120). -/
def encodeFrame (s : Bit) (p : List Byte) : Except CodecError (List Byte) :=
  if p.length > maxPayload then .error .payloadTooLarge else .ok (frameBytes s p)

/-- `encodeEOT` (R121). -/
def encodeEot (s : Bit) : List Byte := frameBytes s []

/-- `decode` (R122): `n` is the received length, `buf` is RE.RXBUF. Where `4 + L > n` the payload holds what `buf` held
before (R123), which RE never reads: what it hands over there is `any` (`rxPayload`; log 14). -/
def decodeFrame (n : Nat) (buf : List Byte) : Except CodecError Frame :=
  if n < hdrBytes then .error .malformedFrame
  else if lenField buf = 0 then .ok ⟨0#16, seqField buf, []⟩
  else if lenField buf > maxPayload ∧ lenField buf > n - hdrBytes then .error .malformedFrame
  else .ok ⟨be16At buf 0, seqField buf, (buf.drop hdrBytes).take (lenField buf)⟩

/-- `encodeAck` (R124). -/
def encodeAck (q : Half) : List Byte := be16 q

/-- `decodeAck` (R125). -/
def decodeAck (d : Datagram) : Except CodecError Half :=
  if d.length = 2 then .ok (be16At d 0) else .error .malformedAck

/-! ### The decoder classes -/

/-- The classes of a datagram that RE takes (R98). -/
inductive FrameClass where
  | short
  | eot
  | overlong
  | dataMatch
  | dataDup
  deriving DecidableEq, Repr

/-- R98, the conditions in their order. `b` is what RE keeps of the datagram. -/
def frameClass (expected : Bit) (b : List Byte) : FrameClass :=
  if b.length < hdrBytes then .short
  else if lenField b = 0 then .eot
  else if lenField b > maxPayload ∧ lenField b > b.length - hdrBytes then .overlong
  else if seqBit (seqField b) = expected then .dataMatch
  else .dataDup

/-- The classes of a datagram that SE takes (R99). -/
inductive AckClass where
  | malformed
  | hit
  | mismatch
  deriving DecidableEq, Repr

/-- R99, all 16 bits compared. -/
def ackClass (seq : Bit) (d : Datagram) : AckClass :=
  if d.length ≠ 2 then .malformed
  else if be16At d 0 = seq.setWidth 16 then .hit
  else .mismatch

/-! ### The CSR map -/

/-- The offset of a configuration register (10_state.md R28). -/
def cfgOffset : CfgReg → Nat
  | .sCfg => 0x004
  | .sLoss => 0x008
  | .sSeed => 0x00C
  | .sIrq => 0x014
  | .rCfg => 0x084
  | .rLoss => 0x088
  | .rSeed => 0x08C
  | .rIrq => 0x094

/-- The offset of an engine's CTRL register (R28). -/
def ctrlOffset : Engine → Nat
  | .se => 0x000
  | .re => 0x080

/-- The register at an offset of the window (R28); none at an unmapped one. -/
def csrAt : Nat → Option Csr
  | 0x000 => some (.ctrl .se)
  | 0x004 => some (.cfg .sCfg)
  | 0x008 => some (.cfg .sLoss)
  | 0x00C => some (.cfg .sSeed)
  | 0x010 => some .sStatus
  | 0x014 => some (.cfg .sIrq)
  | 0x018 => some .sToSec
  | 0x01C => some .sToSub
  | 0x020 => some .sTmrLo
  | 0x024 => some .sTmrHi
  | 0x028 => some .sLfsr
  | 0x030 => some .sGenerated
  | 0x034 => some .sTxAttempts
  | 0x038 => some .sTxOk
  | 0x03C => some .sDropped
  | 0x040 => some .sAcked
  | 0x044 => some .sTimeouts
  | 0x080 => some (.ctrl .re)
  | 0x084 => some (.cfg .rCfg)
  | 0x088 => some (.cfg .rLoss)
  | 0x08C => some (.cfg .rSeed)
  | 0x090 => some .rStatus
  | 0x094 => some (.cfg .rIrq)
  | 0x098 => some .rLfsr
  | 0x0A0 => some .rAccepted
  | 0x0A4 => some .rDuplicates
  | 0x0A8 => some .rBytes
  | 0x0AC => some .rAckTx
  | 0x0B0 => some .rAckDropped
  | _ => none

/-- An access that the block admits: 4 bytes, at a multiple of 4 (20_memory.md R62), inside the window (log 9). -/
def admitted (off : Word) (w : Width) : Bool :=
  decide (w = .b4 ∧ off.toNat % 4 = 0 ∧ off.toNat < windowBytes)

/-! ### The decoder of port words -/

/-- Why a port word is no instruction. -/
inductive DecodeError where
  /-- The port takes another number of bytes. -/
  | wrongLength
  /-- A frame that SE never emits: sequence bits above bit 0 set (R92, R100). -/
  | badSequence
  /-- A frame that SE never emits: its length field is not the payload's, or outside 1 to 80 (R92, R95). -/
  | badLength
  /-- A source answer whose bytes are not `min(L, 80)` (20_memory.md R65). -/
  | badChunk
  /-- No transition rule of the engine is named by this state value (R175, R205). -/
  | noStepInState
  /-- The state value names a rule, but not one that takes this answer. -/
  | otherAnswer
  deriving DecidableEq, Repr

/-- What the decoder needs of the machine: the base of the CSR window (R64) and the two bits that the classes of R98 and
R99 compare with. -/
structure DecodeCtx where
  csrBase  : Word
  expected : Bit
  seq      : Bit
  deriving DecidableEq, Repr

/-- The instruction of a datagram at RXD (R98): total, every byte string has a class. -/
def decodeRxd (c : DecodeCtx) (keep : Bool) (d : Datagram) : Instr :=
  match frameClass c.expected (rxKept d) with
  | .short => .frameShort d keep
  | .eot => .frameEot d keep
  | .overlong => .frameOverlong d keep
  | .dataMatch => .frameDataMatch d keep
  | .dataDup => .frameDataDup d keep

/-- The instruction of a datagram at RXA (R99): total. -/
def decodeRxa (c : DecodeCtx) (keep : Bool) (d : Datagram) : Instr :=
  match ackClass c.seq d with
  | .malformed => .ackMalformed d keep
  | .hit => .ackMatch d keep
  | .mismatch => .ackMismatch d keep

/-- A data frame at TXD (R92). -/
def decodeTxd (smp : Option Half) (r : Resp) (f : List Byte) : Except DecodeError Instr :=
  if f.length < hdrBytes then .error .wrongLength
  else if seqField f ≠ (seqBit (seqField f)).setWidth 16 then .error .badSequence
  else if lenField f = 0 ∨ lenField f > maxPayload ∨ f.length ≠ hdrBytes + lenField f then .error .badLength
  else .ok (.txData (seqBit (seqField f)) (f.drop hdrBytes) smp r)

/-- An EOT frame at TXD: exactly 4 bytes (R93). -/
def decodeTxdEot (r : Resp) (f : List Byte) : Except DecodeError Instr :=
  if f.length ≠ hdrBytes then .error .wrongLength
  else if seqField f ≠ (seqBit (seqField f)).setWidth 16 then .error .badSequence
  else if lenField f ≠ 0 then .error .badLength
  else .ok (.txEot (seqBit (seqField f)) r)

/-- The header of the not-found notice at TXD: sequence field 0, a length of 1 to 80 (R95; log 17). -/
def decodeTxdNotice (r : Resp) (f : List Byte) : Except DecodeError Instr :=
  if f.length ≠ hdrBytes then .error .wrongLength
  else if seqField f ≠ 0#16 then .error .badSequence
  else if lenField f = 0 ∨ lenField f > maxPayload then .error .badLength
  else .ok (.txNotfound (be16At f 0) r)

/-- An ACK at TXA (R94). -/
def decodeTxa (smp : Option Half) (r : Resp) (f : List Byte) : Except DecodeError Instr :=
  if f.length ≠ 2 then .error .wrongLength else .ok (.txAck (be16At f 0) smp r)

/-- A write to a CTRL register (R101): SOFT_RESET wins over START (45_host_commands.md R257). -/
def decodeCtrl (e : Engine) (v : Word) : Instr :=
  if v.extractLsb' 1 1 = 1#1 then
    match e with
    | .se => .sSoftReset (v.extractLsb' 2 30) (v.extractLsb' 0 1)
    | .re => .rSoftReset (v.extractLsb' 2 30) (v.extractLsb' 0 1)
  else if v.extractLsb' 0 1 = 1#1 then
    match e with
    | .se => .sStart (v.extractLsb' 2 30)
    | .re => .rStart (v.extractLsb' 2 30)
  else .ctrlNop e (v.extractLsb' 2 30)

/-- A write access of the HOST (R101, R252, R258; a write that R62 does not admit has no effect, log 10). -/
def decodeWrite (off : Word) (w : Width) (v : Word) : Instr :=
  if admitted off w then
    match csrAt off.toNat with
    | some (.ctrl e) => decodeCtrl e v
    | some (.cfg r) => .cfgWrite r v
    | _ => .roWrite off w v
  else .roWrite off w v

/-- An SE step: the 3 bits of the state register and the environment's answer (R22, R163 to R169). -/
def decodeSeStep (a : SeAnswer) (st : Nat) : Except DecodeError Instr :=
  match st, a with
  | 1, .src len b =>
    if b.length ≠ min len.toNat maxPayload then .error .badChunk
    else if len.toNat = 0 ∨ len.toNat > maxPayload then .ok (.seReadEnd len b)
    else .ok (.seReadChunk b)
  | 2, .attempt smp r => .ok (.seSend smp r)
  | 3, .recv rx => .ok (.seWaitRx rx)
  | 3, .expired => .ok .seWaitTimeout
  | 4, .put r => .ok (.seEot r)
  | 7, .put r => .ok (.seNotfound r)
  | n, _ => if n = 0 ∨ n > 4 ∧ n ≠ 7 then .error .noStepInState else .error .otherAnswer

/-- An RE step: the 3 bits of the state register and the environment's answer (R23, R201 to R204). -/
def decodeReStep (a : ReAnswer) (st : Nat) : Except DecodeError Instr :=
  match st, a with
  | 1, .recv rx => .ok (.reWait rx)
  | 1, .recvData i keep => .ok (.reWaitData i keep)
  | 2, .sink r => .ok (.reDeliver r)
  | 3, .ack smp r => .ok (.reAck smp r)
  | n, _ => if n = 0 ∨ n > 3 then .error .noStepInState else .error .otherAnswer

/-- The decoder: total on any bytes at any port, rejecting by name. -/
def decode (c : DecodeCtx) (p : Port) (bs : List Byte) : Except DecodeError Instr :=
  match p with
  | .rxd keep => .ok (decodeRxd c keep bs)
  | .rxa keep => .ok (decodeRxa c keep bs)
  | .txd smp r => decodeTxd smp r bs
  | .txdEot r => decodeTxdEot r bs
  | .txdNotice r => decodeTxdNotice r bs
  | .txa smp r => decodeTxa smp r bs
  | .csrWrite addr w =>
    match bs with
    | [b3, b2, b1, b0] => .ok (decodeWrite (addr - c.csrBase) w (b3 ++ b2 ++ b1 ++ b0))
    | _ => .error .wrongLength
  | .csrRead addr w =>
    match bs with
    | [] => .ok (.csrRead (addr - c.csrBase) w)
    | _ => .error .wrongLength
  | .seStep a =>
    match bs with
    | [b] => decodeSeStep a b.toNat
    | _ => .error .wrongLength
  | .reStep a =>
    match bs with
    | [b] => decodeReStep a b.toNat
    | _ => .error .wrongLength
  | .tick k =>
    match bs with
    | [] => .ok (.tick k)
    | _ => .error .wrongLength

/-! ### The encoder -/

/-- The value that a START, SOFT_RESET or no-command write carries (R101). -/
def ctrlValue (hi : BitVec 30) (b1 b0 : Bit) : Word := hi ++ b1 ++ b0

/-- A HOST write at a window offset, as a port word. -/
def writeWord (c : DecodeCtx) (off : Word) (w : Width) (v : Word) : Port × List Byte :=
  (.csrWrite (c.csrBase + off) w, be32 v)

/-- The encoder: the port word of an instruction. -/
def encode (c : DecodeCtx) : Instr → Port × List Byte
  | .frameShort d keep => (.rxd keep, d)
  | .frameEot d keep => (.rxd keep, d)
  | .frameOverlong d keep => (.rxd keep, d)
  | .frameDataMatch d keep => (.rxd keep, d)
  | .frameDataDup d keep => (.rxd keep, d)
  | .ackMalformed d keep => (.rxa keep, d)
  | .ackMatch d keep => (.rxa keep, d)
  | .ackMismatch d keep => (.rxa keep, d)
  | .txData seq payload smp r => (.txd smp r, frameBytes seq payload)
  | .txEot seq r => (.txdEot r, encodeEot seq)
  | .txNotfound len r => (.txdNotice r, be16 len ++ be16 0#16)
  | .txAck a smp r => (.txa smp r, encodeAck a)
  | .sStart hi => writeWord c (BitVec.ofNat 32 (ctrlOffset .se)) .b4 (ctrlValue hi 0#1 1#1)
  | .sSoftReset hi b0 => writeWord c (BitVec.ofNat 32 (ctrlOffset .se)) .b4 (ctrlValue hi 1#1 b0)
  | .rStart hi => writeWord c (BitVec.ofNat 32 (ctrlOffset .re)) .b4 (ctrlValue hi 0#1 1#1)
  | .rSoftReset hi b0 => writeWord c (BitVec.ofNat 32 (ctrlOffset .re)) .b4 (ctrlValue hi 1#1 b0)
  | .ctrlNop e hi => writeWord c (BitVec.ofNat 32 (ctrlOffset e)) .b4 (ctrlValue hi 0#1 0#1)
  | .cfgWrite reg v => writeWord c (BitVec.ofNat 32 (cfgOffset reg)) .b4 v
  | .roWrite off w v => writeWord c off w v
  | .csrRead off w => (.csrRead (c.csrBase + off) w, [])
  | .seReadEnd len b => (.seStep (.src len b), [1#8])
  | .seReadChunk b => (.seStep (.src (BitVec.ofNat 7 b.length) b), [1#8])
  | .seSend smp r => (.seStep (.attempt smp r), [2#8])
  | .seWaitRx rx => (.seStep (.recv rx), [3#8])
  | .seWaitTimeout => (.seStep .expired, [3#8])
  | .seEot r => (.seStep (.put r), [4#8])
  | .seNotfound r => (.seStep (.put r), [7#8])
  | .tick k => (.tick k, [])
  | .reWait rx => (.reStep (.recv rx), [1#8])
  | .reWaitData i keep => (.reStep (.recvData i keep), [1#8])
  | .reDeliver r => (.reStep (.sink r), [2#8])
  | .reAck smp r => (.reStep (.ack smp r), [3#8])

/-! ### Words of the opcode table -/

/-- A word of the opcode table as a big-endian byte string of `k` bytes. -/
def tableBytes (k w : Nat) : List Byte :=
  match k with
  | 0 => []
  | k + 1 => BitVec.ofNat 8 (w / 256 ^ k) :: tableBytes k w

/-- DESIGN CHOICE (log 3): the port at which a bare word of the opcode table is presented. The table keys its rows by
format as well as by bits and several rows share one word, so a word alone is read in one format:
8 bits a tick or the state register of SE, 16 bits an ACK at RXA, 32 bits the exact header of the notice, else by the
length field a command at S_CTRL, an EOT frame, a data frame, or a received frame. The operand bytes are zeros. -/
def tableEvent (nbits w : Nat) : Port × List Byte :=
  if nbits = 8 then
    if w = 0 then (.tick 1, [])
    else if w = 1 then (.seStep (.src 0#7 []), [1#8])
    else if w = 2 then (.seStep (.attempt (some 0#16) .ok), [2#8])
    else if w = 3 then (.seStep .expired, [3#8])
    else (.seStep (.put .ok), tableBytes 1 w)
  else if nbits = 16 then (.rxa false, tableBytes 2 w)
  else if nbits = 32 then
    let hi := w / 65536
    let lo := w % 65536
    if w = 0x000E0000 then (.txdNotice .ok, tableBytes 4 w)
    else if hi = 0 then
      if lo = 0 then (.txdEot .ok, tableBytes 4 w)
      else if lo < 4 then (.csrWrite 0#32 .b4, tableBytes 4 w)
      else (.rxd false, tableBytes 4 w)
    else if hi ≤ maxPayload then
      if lo ≤ 1 then (.txd (some 0#16) .ok, tableBytes 4 w ++ List.replicate hi 0#8)
      else (.rxd false, tableBytes 4 w ++ List.replicate hi 0#8)
    else (.csrWrite 0#32 .b4, tableBytes 4 w)
  else (.seStep .expired, [])

/-- The context in which a bare word of the table is decoded: window base 0, RE.EXPECTED 0, and SE.SEQ the letter `s`
of the ACK_MATCH row, bit 0 of an ACK of 0 or 1. -/
def tableCtx (nbits w : Nat) : DecodeCtx :=
  ⟨0#32, 0#1, if nbits = 16 ∧ w = 1 then 1#1 else 0#1⟩

/-- The instruction that the decoder reads from a bare word of the opcode table, its operand words zero. -/
def decodeTableWord (nbits w : Nat) : Option Instr :=
  match decode (tableCtx nbits w) (tableEvent nbits w).1 (tableEvent nbits w).2 with
  | .ok i => some i
  | .error _ => none

end Sys2Proof
end

