-- ==== Sys2Proof/WellFormed.lean ====
section
/-! DEFINITION. Which instructions are well formed: the operands a row of the opcode table admits (its condition, as far
as it does not speak of the machine's state), and Fits, the part of the condition that does. -/

namespace Sys2Proof

/-- What RE keeps of `d` has a header and a length field of 1 to 80 (R98, classes 4 and 5). -/
def isDataFrame (d : Datagram) : Bool :=
  decide (hdrBytes ≤ (rxKept d).length ∧ 1 ≤ lenField (rxKept d) ∧ lenField (rxKept d) ≤ maxPayload)

/-- The offset names a CTRL or a configuration register, so that an admitted write to it is no RO_WRITE. -/
def isWritable (off : Nat) : Bool :=
  match csrAt off with
  | some (.ctrl _) => true
  | some (.cfg _) => true
  | _ => false

/-- The operands that each row admits. -/
def wellFormed : Instr → Bool
  | .frameShort d _ => decide ((rxKept d).length < hdrBytes)
  | .frameEot d _ => decide (hdrBytes ≤ (rxKept d).length ∧ lenField (rxKept d) = 0)
  | .frameOverlong d _ => decide (hdrBytes ≤ (rxKept d).length ∧ lenField (rxKept d) > maxPayload)
  | .frameDataMatch d _ => isDataFrame d
  | .frameDataDup d _ => isDataFrame d
  | .ackMalformed d _ => decide (d.length ≠ 2)
  | .ackMatch d _ => decide (d.length = 2 ∧ (be16At d 0).toNat ≤ 1)
  | .ackMismatch d _ => decide (d.length = 2)
  | .txData _ payload _ _ => decide (1 ≤ payload.length ∧ payload.length ≤ maxPayload)
  | .txEot _ _ => true
  | .txNotfound len _ => decide (1 ≤ len.toNat ∧ len.toNat ≤ maxPayload)
  | .txAck _ _ _ => true
  | .sStart _ => true
  | .sSoftReset _ _ => true
  | .rStart _ => true
  | .rSoftReset _ _ => true
  | .ctrlNop _ _ => true
  | .cfgWrite _ _ => true
  | .roWrite off w _ => !(admitted off w && isWritable off.toNat)
  | .csrRead _ _ => true
  | .seReadEnd len b => decide ((len.toNat = 0 ∨ len.toNat > maxPayload) ∧ b.length = min len.toNat maxPayload)
  | .seReadChunk b => decide (1 ≤ b.length ∧ b.length ≤ maxPayload)
  | .seSend _ _ => true
  | .seWaitRx _ => true
  | .seWaitTimeout => true
  | .seEot _ => true
  | .seNotfound _ => true
  | .tick _ => true
  | .reWait _ => true
  | .reWaitData _ _ => true
  | .reDeliver _ => true
  | .reAck _ _ => true

/-- The part of a row's condition that compares with RE.EXPECTED or SE.SEQ (R98, R99). -/
def fits (c : DecodeCtx) : Instr → Bool
  | .frameDataMatch d _ => decide (seqBit (seqField (rxKept d)) = c.expected)
  | .frameDataDup d _ => decide (seqBit (seqField (rxKept d)) ≠ c.expected)
  | .ackMatch d _ => decide (be16At d 0 = c.seq.setWidth 16)
  | .ackMismatch d _ => decide (be16At d 0 ≠ c.seq.setWidth 16)
  | _ => true

end Sys2Proof
end

