-- ==== Sys2Proof/Machine/State.lean ====
section
/-! DEFINITION. The state of the machine: the two engines with every register of 10_state.md, the channels and the
delivered stream and the sink (20_memory.md R67, R68), and the model's own fields. All of it is plain data. -/

namespace Sys2Proof.Machine

/-- The state register of SE (10_state.md R22). -/
inductive SeState where
  | idle | read | send | wait | eot | done | fault | notFound
  deriving DecidableEq, Repr

/-- The state register of RE (R23), its two reserved values included. -/
inductive ReState where
  | idle | wait | deliver | ack | done | fault | reserved6 | reserved7
  deriving DecidableEq, Repr

/-- The cause codes that a rule writes (60_exceptions.md R281); codes 6 to 15 are never written. -/
inductive Cause where
  | none | payloadTooLarge | malformedFrame | malformedAck | txError | rxError
  deriving DecidableEq, Repr

/-- The registers of SE: the internal state of R25 and the S_ registers of R30 to R38. -/
structure Sender where
  state      : SeState
  seq        : Bit
  txbuf      : List Byte
  txlen      : BitVec 7
  toSec      : BitVec 32
  toSub      : BitVec 10
  tmr        : BitVec 64
  texp       : Bool
  lfsr       : Half
  cause      : Cause
  toExp      : BitVec 4
  srcMissing : Bool
  sampleExt  : Bool
  lossP      : BitVec 17
  seed       : Half
  doneIe     : Bool
  faultIe    : Bool
  generated  : BitVec 32
  txAttempts : BitVec 32
  txOk       : BitVec 32
  dropped    : BitVec 32
  acked      : BitVec 32
  timeouts   : BitVec 32
  deriving DecidableEq, Repr

/-- The registers of RE: the internal state of R26 and the R_ registers of R40 to R47; and the model's own field `rxn`, how
many bytes of RXBUF are those of the datagram last received, the `n` of 20_memory.md R70 (log 14). -/
structure Receiver where
  state      : ReState
  expected   : Bit
  rxbuf      : List Byte
  rxn        : Nat
  rlen       : Half
  rseq       : Half
  lfsr       : Half
  cause      : Cause
  sinkErr    : Bool
  sampleExt  : Bool
  lossP      : BitVec 17
  seed       : Half
  doneIe     : Bool
  faultIe    : Bool
  accepted   : BitVec 32
  duplicates : BitVec 32
  bytes      : BitVec 32
  ackTx      : BitVec 32
  ackDropped : BitVec 32
  deriving DecidableEq, Repr

/-- The machine: the two engines, the channels, the delivered stream of the session (20_memory.md R67; log 12), what the
attached sink holds (R67, 70_reset_and_hazards.md R316; log 23); then the model's own fields (INVENTORY.md):
the response of the last HOST access (log 11), the events still to come (log 1), the OPEN parameters (log 8) and the
counter of the free values (log 7). -/
structure State where
  se        : Sender
  re        : Receiver
  chd       : List Datagram
  cha       : List Datagram
  delivered : List Byte
  sink      : List Byte
  bus       : Option BusResp
  script    : List Event
  params    : Params
  freeCtr   : Nat
  deriving DecidableEq, Repr

/-- The model stops with no fault: what the spec calls a fault is a next state, the engine's FAULT state with its cause
(60_exceptions.md R283; log 20). So nothing raises one, and the type has no case. -/
inductive Fault where
  deriving DecidableEq, Repr

/-- Why a step has no meaning. -/
inductive Refusal where
  /-- Raised by an arm of exec that has no meaning yet; safe. -/
  | notModelled (mnemonic : String)
  /-- Raised by step on a port word that no row of the opcode table gives a meaning; safe. -/
  | undecodable (e : DecodeError)
  deriving DecidableEq, Repr

/-- SE after reset (70_reset_and_hazards.md R310), its buffer and buffer length, which reset leaves `any`, given. -/
def Sender.atReset (txbuf : List Byte) (txlen : BitVec 7) : Sender where
  state := .idle
  seq := 0#1
  txbuf := txbuf
  txlen := txlen
  toSec := 0#32
  toSub := 0#10
  tmr := 0#64
  texp := false
  lfsr := lfsrInit
  cause := .none
  toExp := 0#4
  srcMissing := false
  sampleExt := false
  lossP := 0#17
  seed := 0#16
  doneIe := false
  faultIe := false
  generated := 0#32
  txAttempts := 0#32
  txOk := 0#32
  dropped := 0#32
  acked := 0#32
  timeouts := 0#32

/-- RE after reset (R310), the registers that reset leaves `any` given. -/
def Receiver.atReset (rxbuf : List Byte) (rlen rseq : Half) : Receiver where
  state := .idle
  expected := 0#1
  rxbuf := rxbuf
  rxn := 0
  rlen := rlen
  rseq := rseq
  lfsr := lfsrInit
  cause := .none
  sinkErr := false
  sampleExt := false
  lossP := 0#17
  seed := 0#16
  doneIe := false
  faultIe := false
  accepted := 0#32
  duplicates := 0#32
  bytes := 0#32
  ackTx := 0#32
  ackDropped := 0#32

/-- The machine right after reset (R310, R311). DESIGN CHOICE: zeros where reset leaves a register `any` (log 6), empty
channels, an empty delivered stream (log 12) and an empty sink (log 23), no response and no event yet (logs 4 and 11), the parameters of log 8. -/
def State.reset : State where
  se := Sender.atReset (List.replicate bufBytes 0#8) 0#7
  re := Receiver.atReset (List.replicate bufBytes 0#8) 0#16 0#16
  chd := []
  cha := []
  delivered := []
  sink := []
  bus := none
  script := []
  params := Params.atReset
  freeCtr := 0

end Sys2Proof.Machine
end

