-- ==== Sys2Proof/Machine/Ops.lean ====
section
/-! DEFINITION. The named operations: faults, channels, the loss gate, buffers, the timeout derivation and the timer,
START and the resets, HOST responses and the moves of the environment. -/

namespace Sys2Proof.Machine

/-! ### Faults -/

/-- `raise Fault(c)` (60_exceptions.md R283): every write made before stands, the other engine is untouched.
There is no return from a fault (R284): an engine leaves its FAULT state only by `startSe`, `startRe`, `softResetSe`,
`softResetRe` or `hardReset`, all below, and each of them begins afresh. -/
def raiseFault (e : Engine) (c : Cause) (s : State) : State :=
  match e with
  | .se => { s with se := { s.se with cause := c, state := .fault } }
  | .re => { s with re := { s.re with cause := c, state := .fault } }

/-! ### Running engines (10_state.md R27) -/

/-- SE runs in S_READ, S_SEND, S_WAIT, S_EOT and S_NOTFOUND. -/
def seRunning : SeState → Bool
  | .read => true
  | .send => true
  | .wait => true
  | .eot => true
  | .notFound => true
  | .idle => false
  | .done => false
  | .fault => false

/-- RE runs in R_WAIT, R_DELIVER and R_ACK. -/
def reRunning : ReState → Bool
  | .wait => true
  | .deliver => true
  | .ack => true
  | .idle => false
  | .done => false
  | .fault => false
  | .reserved6 => false
  | .reserved7 => false

/-- The states in which R_START acts (45_host_commands.md R254). -/
def reStartable : ReState → Bool
  | .idle => true
  | .done => true
  | .fault => true
  | .wait => false
  | .deliver => false
  | .ack => false
  | .reserved6 => false
  | .reserved7 => false

/-! ### Channels (20_memory.md R68) -/

/-- Which deliveries a channel may make: FIFO modes only the head, and only FIFO_RELIABLE never keeps it. -/
def channelAllows (m : ChannelMode) (i : Nat) (keep : Bool) : Bool :=
  match m with
  | .fifoReliable => i == 0 && !keep
  | .fifoLossy => i == 0
  | .unordered => true

/-- Deliver element `i` of the sequence `q`, removed unless `keep`; none where the channel may not. -/
def deliverAt (m : ChannelMode) (q : List Datagram) (i : Nat) (keep : Bool) : Option (Datagram × List Datagram) :=
  if channelAllows m i keep then
    match q[i]? with
    | some d => some (d, if keep then q else q.eraseIdx i)
    | none => none
  else none

/-- Deliver the datagram `d` itself, the first of its copies (log 15): the sequence that is left. -/
def deliverThis (m : ChannelMode) (q : List Datagram) (d : Datagram) (keep : Bool) : Option (List Datagram) :=
  match deliverAt m q (q.idxOf d) keep with
  | some (_, q') => some q'
  | none => none

/-- The extra channel step: delete element `i`, in the modes that may. -/
def loseAt (m : ChannelMode) (q : List Datagram) (i : Nat) : List Datagram :=
  match m with
  | .fifoReliable => q
  | .fifoLossy => q.eraseIdx i
  | .unordered => q.eraseIdx i

/-! ### The loss gate (41_loss_gate.md) -/

/-- `lfsr_step` (R145). -/
def lfsrStep (s : Half) : Half :=
  if s.extractLsb' 0 1 = 1#1 then (s >>> 1) ^^^ lfsrMask else s >>> 1

/-- `shouldDrop` (R144). -/
def shouldDrop (p : BitVec 17) (u : Half) : Bool := decide (u.toNat < p.toNat)

/-- `Sample` (R143): the sample and the LFSR after it; none where the external agent offers no sample, and the step is
not enabled. In LFSR mode an offered sample is not taken (log 16). -/
def drawSample (ext : Bool) (lfsr : Half) (smp : Option Half) : Option (Half × Half) :=
  if ext then
    match smp with
    | some u => some (u, lfsr)
    | none => none
  else some (lfsrStep lfsr, lfsrStep lfsr)

/-- The LFSR after a seed load (R141). -/
def seedLfsr (v : Half) : Half := if v = 0#16 then lfsrInit else v

/-- The value that a write of `v` leaves in a LOSS register: `min(v[16:0], 0x10000)` (10_state.md R32). -/
def clampLoss (v : Word) : BitVec 17 :=
  if v.extractLsb' 0 17 > pOne then pOne else v.extractLsb' 0 17

/-! ### Buffers -/

/-- `BUF[0 .. len(b)) <- b`: the bytes above keep their earlier values (20_memory.md R70). -/
def overwrite (buf b : List Byte) : List Byte := b ++ buf.drop b.length

/-- The frame in flight, `SE.TXBUF[0 .. SE.TXLEN)` (42_sender.md R165). -/
def txFrame (se : Sender) : List Byte := se.txbuf.take se.txlen.toNat

/-- SE with the frame `f` in its buffer (R164, R169). -/
def loadFrame (f : List Byte) (se : Sender) : Sender :=
  { se with txbuf := overwrite se.txbuf f, txlen := BitVec.ofNat 7 f.length }

/-- `n` free bytes, drawn from the counter value `k` on (logs 7 and 14). -/
def freeBytes (k n : Nat) : List Byte := (List.range n).map (fun j => Config.freeByte (k + j))

/-- How many bytes of the payload the datagram did not bring: `4 + L - n`, 0 unless it is truncated (40_codec.md R123). -/
def rxMissing (re : Receiver) : Nat := hdrBytes + re.rlen.toNat - re.rxn

/-- The payload of the frame being handled, `RE.RXBUF[4 .. 4 + RE.RLEN)` (43_receiver.md R203). The bytes at index `n` and
above are `any` (10_state.md R26, 40_codec.md R123): free values, drawn from the counter value `k` on (log 14). -/
def rxPayload (k : Nat) (re : Receiver) : List Byte :=
  ((re.rxbuf.take re.rxn ++ freeBytes k (rxMissing re)).drop hdrBytes).take re.rlen.toNat

/-! ### Timeout derivation and timer (42_sender.md) -/

/-- `T_ms` of R161, in exact natural arithmetic. -/
def timeoutMs (e : BitVec 4) : Nat := 10 ^ e.toNat / 1000

/-- The effective wait `D` in ticks (R162). -/
def effWait (se : Sender) : Nat := se.toSec.toNat * 1000000 + se.toSub.toNat

/-- Arm the bounded wait (R165). -/
def armWait (se : Sender) : Sender :=
  { se with tmr := BitVec.ofNat 64 (effWait se), texp := false, state := .wait }

/-- One pulse of the timebase (R170, R171). -/
def tickOnce (z : ZeroTimeout) (se : Sender) : Sender :=
  if se.state = .wait then
    if se.tmr ≠ 0#64 then
      { se with tmr := se.tmr - 1#64, texp := if se.tmr = 1#64 then true else se.texp }
    else
      match z with
      | .nextTick => { se with texp := true }
      | .never => se
  else se

/-- `k` pulses of R170, one after another (log 21). -/
def tickMany (z : ZeroTimeout) : Nat → Sender → Sender
  | 0, se => se
  | k + 1, se => tickMany z k (tickOnce z se)

/-! ### START and resets (45_host_commands.md, 70_reset_and_hazards.md R310) -/

/-- S_START (R253): ignored while SE runs. -/
def startSe (s : State) : State :=
  if seRunning s.se.state then s
  else
    { s with se := { s.se with
        generated := 0#32, txAttempts := 0#32, txOk := 0#32, dropped := 0#32, acked := 0#32, timeouts := 0#32
        seq := 0#1, cause := .none, tmr := 0#64, texp := false
        toSec := BitVec.ofNat 32 (timeoutMs s.se.toExp / 1000)
        toSub := BitVec.ofNat 10 (timeoutMs s.se.toExp % 1000)
        state := if s.se.srcMissing then .notFound else .read } }

/-- R_START (R254): acts in R_IDLE, R_DONE and R_FAULT only. A session begins, and with it its delivered stream
(20_memory.md R67; log 12). -/
def startRe (s : State) : State :=
  if reStartable s.re.state then
    { s with
      delivered := []
      re := { s.re with
        accepted := 0#32, duplicates := 0#32, bytes := 0#32, ackTx := 0#32, ackDropped := 0#32
        expected := 0#1, cause := .none, sinkErr := false, state := .wait } }
  else s

/-- The SE half of the reset (R255, R310): TXBUF and TXLEN become free values. -/
def softResetSe (s : State) : State :=
  { s with
    se := Sender.atReset (freeBytes s.freeCtr bufBytes) ((Config.freeByte (s.freeCtr + 84)).setWidth 7)
    freeCtr := s.freeCtr + 85 }

/-- The RE half of the reset (R256, R310): RXBUF, RLEN and RSEQ become free values. The session is over and R_BYTES is 0, so
the delivered stream is empty too (44_statistics.md R235; log 12). -/
def softResetRe (s : State) : State :=
  { s with
    re := Receiver.atReset (freeBytes s.freeCtr bufBytes)
      (Config.freeByte (s.freeCtr + 84) ++ Config.freeByte (s.freeCtr + 85))
      (Config.freeByte (s.freeCtr + 86) ++ Config.freeByte (s.freeCtr + 87))
    delivered := []
    freeCtr := s.freeCtr + 88 }

/-- Hard reset (R310): both halves; the environment is not touched (R312). -/
def hardReset (s : State) : State := softResetRe (softResetSe s)

/-! ### The sink (20_memory.md R67) -/

/-- SNK takes the payload `p` and answers `r`: it has stored `p` where it answers OK, and holds anything where it answers
ERR (93_implementation_defined.md U12; log 23). -/
def sinkWrite (p : List Byte) (r : Resp) (s : State) : State :=
  match r with
  | .ok => { s with sink := s.sink ++ p }
  | .err => { s with sink := Config.freeSink s.freeCtr, freeCtr := s.freeCtr + 1 }

/-! ### The HOST's port -/

/-- The access completes with the response `b` (20_memory.md R60 to R62; log 11). -/
def respond (b : BusResp) (s : State) : State := { s with bus := some b }

/-! ### Moves of the environment that are no row of the opcode table (log 19) -/

/-- A channel deletes an element, where its mode lets it (R68). -/
def loseMove (c : Chan) (i : Nat) (s : State) : State :=
  match c with
  | .chd => { s with chd := loseAt s.params.channelMode s.chd i }
  | .cha => { s with cha := loseAt s.params.channelMode s.cha i }

/-- Both channels are replaced by empty ones (70_reset_and_hazards.md R316). -/
def emptyChannelsMove (s : State) : State := { s with chd := [], cha := [] }

/-- A new, empty sink is attached (R316). The delivered stream of the session is RE's doing and stands (20_memory.md R67). -/
def freshSinkMove (s : State) : State := { s with sink := [] }

end Sys2Proof.Machine
end

