-- ==== Sys2Proof/Machine/Flags.lean ====
section
/-! DEFINITION. The codes of the state registers and causes, the status, pending and interrupt flags (10_state.md R34, R35,
R44, R45, R48; 60_exceptions.md R281, R286), and the CSRs assembled from their fields (R29 to R47). -/

namespace Sys2Proof.Machine

/-- The value of `SE.state` (R22). -/
def seCode : SeState → BitVec 3
  | .idle => 0#3
  | .read => 1#3
  | .send => 2#3
  | .wait => 3#3
  | .eot => 4#3
  | .done => 5#3
  | .fault => 6#3
  | .notFound => 7#3

/-- The value of `RE.state` (R23). -/
def reCode : ReState → BitVec 3
  | .idle => 0#3
  | .wait => 1#3
  | .deliver => 2#3
  | .ack => 3#3
  | .done => 4#3
  | .fault => 5#3
  | .reserved6 => 6#3
  | .reserved7 => 7#3

/-- The cause codes (R281). -/
def causeCode : Cause → BitVec 4
  | .none => 0#4
  | .payloadTooLarge => 1#4
  | .malformedFrame => 2#4
  | .malformedAck => 3#4
  | .txError => 4#4
  | .rxError => 5#4

/-- `S_IRQ.DONE_IP` (R35). -/
def seDoneIp (se : Sender) : Bool := decide (se.state = .done)

/-- `S_IRQ.FAULT_IP` (R35). -/
def seFaultIp (se : Sender) : Bool := decide (se.state = .fault)

/-- `R_IRQ.DONE_IP` (R45). -/
def reDoneIp (re : Receiver) : Bool := decide (re.state = .done)

/-- `R_IRQ.FAULT_IP` (R45). -/
def reFaultIp (re : Receiver) : Bool := decide (re.state = .fault)

/-- The interrupt line IRQ_S (60_exceptions.md R286). -/
def irqS (s : State) : Bool := (s.se.doneIe && seDoneIp s.se) || (s.se.faultIe && seFaultIp s.se)

/-- The interrupt line IRQ_R (R286). -/
def irqR (s : State) : Bool := (s.re.doneIe && reDoneIp s.re) || (s.re.faultIe && reFaultIp s.re)

/-- S_STATUS (R34). -/
def seStatus (se : Sender) : Word := 0#24 ++ causeCode se.cause ++ se.seq ++ seCode se.state

/-- R_STATUS (R44). -/
def reStatus (re : Receiver) : Word :=
  0#23 ++ BitVec.ofBool re.sinkErr ++ causeCode re.cause ++ re.expected ++ reCode re.state

/-- An IRQ register (R35, R45). -/
def irqWord (doneIe faultIe doneIp faultIp : Bool) : Word :=
  0#22 ++ BitVec.ofBool faultIp ++ BitVec.ofBool doneIp ++ 0#6 ++ BitVec.ofBool faultIe ++ BitVec.ofBool doneIe

/-- A configuration register as it reads (R30, R32, R33, R35, R40 to R42, R45). -/
def readCfg (s : State) : CfgReg → Word
  | .sCfg => 0#26 ++ BitVec.ofBool s.se.sampleExt ++ BitVec.ofBool s.se.srcMissing ++ s.se.toExp
  | .sLoss => s.se.lossP.setWidth 32
  | .sSeed => s.se.seed.setWidth 32
  | .sIrq => irqWord s.se.doneIe s.se.faultIe (seDoneIp s.se) (seFaultIp s.se)
  | .rCfg => (BitVec.ofBool s.re.sampleExt).setWidth 32
  | .rLoss => s.re.lossP.setWidth 32
  | .rSeed => s.re.seed.setWidth 32
  | .rIrq => irqWord s.re.doneIe s.re.faultIe (reDoneIp s.re) (reFaultIp s.re)

/-- A register as it reads (R28 to R47). -/
def readCsr (s : State) : Csr → Word
  | .ctrl _ => 0#32
  | .cfg r => readCfg s r
  | .sStatus => seStatus s.se
  | .sToSec => s.se.toSec
  | .sToSub => s.se.toSub.setWidth 32
  | .sTmrLo => s.se.tmr.extractLsb' 0 32
  | .sTmrHi => s.se.tmr.extractLsb' 32 32
  | .sLfsr => s.se.lfsr.setWidth 32
  | .sGenerated => s.se.generated
  | .sTxAttempts => s.se.txAttempts
  | .sTxOk => s.se.txOk
  | .sDropped => s.se.dropped
  | .sAcked => s.se.acked
  | .sTimeouts => s.se.timeouts
  | .rStatus => reStatus s.re
  | .rLfsr => s.re.lfsr.setWidth 32
  | .rAccepted => s.re.accepted
  | .rDuplicates => s.re.duplicates
  | .rBytes => s.re.bytes
  | .rAckTx => s.re.ackTx
  | .rAckDropped => s.re.ackDropped

/-- `reg_at(a)` (45_host_commands.md R251): an unmapped offset reads 0 (20_memory.md R61). -/
def readAt (s : State) (off : Nat) : Word :=
  match csrAt off with
  | some r => readCsr s r
  | none => 0#32

/-- Store into S_CFG (R30). -/
def storeSCfg (v : Word) (se : Sender) : Sender :=
  { se with toExp := v.extractLsb' 0 4, srcMissing := v.getLsbD 4, sampleExt := v.getLsbD 5 }

/-- A write to a configuration register (R258): CFG, LOSS and SEED are locked while the engine runs, IRQ never is. -/
def writeCfg (r : CfgReg) (v : Word) (s : State) : State :=
  match r with
  | .sCfg => if seRunning s.se.state then s else { s with se := storeSCfg v s.se }
  | .sLoss => if seRunning s.se.state then s else { s with se := { s.se with lossP := clampLoss v } }
  | .sSeed =>
    if seRunning s.se.state then s
    else { s with se := { s.se with seed := v.extractLsb' 0 16, lfsr := seedLfsr (v.extractLsb' 0 16) } }
  | .sIrq => { s with se := { s.se with doneIe := v.getLsbD 0, faultIe := v.getLsbD 1 } }
  | .rCfg => if reRunning s.re.state then s else { s with re := { s.re with sampleExt := v.getLsbD 0 } }
  | .rLoss => if reRunning s.re.state then s else { s with re := { s.re with lossP := clampLoss v } }
  | .rSeed =>
    if reRunning s.re.state then s
    else { s with re := { s.re with seed := v.extractLsb' 0 16, lfsr := seedLfsr (v.extractLsb' 0 16) } }
  | .rIrq => { s with re := { s.re with doneIe := v.getLsbD 0, faultIe := v.getLsbD 1 } }

end Sys2Proof.Machine
end

