-- ==== Sys2Proof/Machine/Operands.lean ====
section
/-! DEFINITION. The transitions of the engines, each once, over the answers of the environment: an ACK or an error taken
by SE, a datagram or an error taken by RE, the transmission attempt, the EOT, the notice, delivery and acknowledgment.
A step that is not enabled leaves the state as it is: the engine waits (00_scope.md R12; log 5). -/

namespace Sys2Proof.Machine

/-! ### What SE takes (42_sender.md R163, R164, R166, R167) -/

/-- SE takes the datagram `d` from CHA, of which `q` is left (R166). A match and a mismatch set SE.TMR to 0; a malformed ACK
faults before that write. DESIGN CHOICE (log 22): there 60_exceptions.md R291 says 0 and R166 the earlier value, no ruling
settles it, and the model follows R166, with R283 and R288. -/
def seTake (d : Datagram) (q : List Datagram) (s : State) : State :=
  match decodeAck d with
  | .error _ => raiseFault .se .malformedAck { s with cha := q }
  | .ok a =>
    if a = s.se.seq.setWidth 16 then
      { s with
        cha := q
        se := { s.se with tmr := 0#64, texp := false, acked := s.se.acked + 1#32, seq := s.se.seq ^^^ 1#1, state := .read } }
    else
      { s with cha := q, se := { s.se with tmr := 0#64, texp := false, state := .send } }

/-- SE in S_WAIT meets CHA's answer (R166). -/
def seRecv (rx : Recv) (s : State) : State :=
  if s.se.state = .wait then
    match rx with
    | .err => raiseFault .se .rxError s
    | .dgram i keep =>
      match deliverAt s.params.channelMode s.cha i keep with
      | some (d, q) => seTake d q s
      | none => s
  else s

/-- SE in S_WAIT takes the datagram `d` of the class `k` (R99). -/
def seTakeClass (k : AckClass) (d : Datagram) (keep : Bool) (s : State) : State :=
  if s.se.state = .wait ∧ ackClass s.se.seq d = k then
    match deliverThis s.params.channelMode s.cha d keep with
    | some q => seTake d q s
    | none => s
  else s

/-- SE in S_READ meets an answer of SRC that is no chunk (R163). -/
def seSourceEnd (len : BitVec 7) (s : State) : State :=
  if s.se.state = .read then
    if len.toNat = 0 then { s with se := { s.se with state := .eot } }
    else if len.toNat > maxPayload then raiseFault .se .payloadTooLarge s
    else s
  else s

/-- SE in S_READ frames the chunk `b` (R164). -/
def seChunk (b : List Byte) (s : State) : State :=
  if s.se.state = .read ∧ 1 ≤ b.length then
    match encodeFrame s.se.seq b with
    | .ok f =>
      { s with se := { loadFrame f s.se with generated := s.se.generated + 1#32, state := .send } }
    | .error _ => s
  else s

/-- SE in S_WAIT meets the expiry (R167). -/
def seExpire (s : State) : State :=
  if s.se.state = .wait ∧ s.se.texp then
    { s with se := { s.se with timeouts := s.se.timeouts + 1#32, texp := false, state := .send } }
  else s

/-! ### What SE sends (R165, R168, R169) -/

/-- SE's sample, if the step has one (41_loss_gate.md R143). -/
def seSample (smp : Option Half) (s : State) : Option (Half × Half) := drawSample s.se.sampleExt s.se.lfsr smp

/-- One transmission attempt with the sample `u`, the LFSR going to `l` (R165). DESIGN CHOICE (log 22): a Send answered ERR
faults before the wait is armed, as R165's pseudocode has it, though 60_exceptions.md R291 says that each S_SEND arms it. -/
def sendWith (u l : Half) (r : Resp) (s : State) : State :=
  if shouldDrop s.se.lossP u then
    { s with se := armWait { s.se with
        lfsr := l, txAttempts := s.se.txAttempts + 1#32, dropped := s.se.dropped + 1#32 } }
  else
    match r with
    | .err =>
      raiseFault .se .txError { s with se := { s.se with lfsr := l, txAttempts := s.se.txAttempts + 1#32 } }
    | .ok =>
      { s with
        chd := s.chd ++ [txFrame s.se]
        se := armWait { s.se with lfsr := l, txAttempts := s.se.txAttempts + 1#32, txOk := s.se.txOk + 1#32 } }

/-- SE in S_SEND makes one attempt (R165). -/
def sendAttempt (smp : Option Half) (r : Resp) (s : State) : State :=
  if s.se.state = .send then
    match seSample smp s with
    | some (u, l) => sendWith u l r s
    | none => s
  else s

/-- The attempt that the machine would make now emits the data frame of `seq` and `payload` (R92, R165). -/
def emitsData (seq : Bit) (payload : List Byte) (smp : Option Half) (s : State) : Bool :=
  decide (s.se.state = .send ∧ txFrame s.se = frameBytes seq payload) &&
    match seSample smp s with
    | some (u, _) => !shouldDrop s.se.lossP u
    | none => false

/-- SE in S_EOT sends the EOT frame (R168). -/
def sendEot (r : Resp) (s : State) : State :=
  if s.se.state = .eot then
    match r with
    | .err => raiseFault .se .txError s
    | .ok => { s with chd := s.chd ++ [encodeEot s.se.seq], se := { s.se with state := .done } }
  else s

/-- The not-found notice (30_encoding.md R95). -/
def noticeFrame (s : State) : List Byte := frameBytes s.se.seq s.params.notFoundMsg.bytes

/-- SE in S_NOTFOUND sends the notice (R169). -/
def sendNotice (r : Resp) (s : State) : State :=
  if s.se.state = .notFound then
    match r with
    | .err => raiseFault .se .txError { s with se := loadFrame (noticeFrame s) s.se }
    | .ok =>
      { s with
        chd := s.chd ++ [noticeFrame s]
        se := { loadFrame (noticeFrame s) s.se with seq := s.se.seq ^^^ 1#1, state := .eot } }
  else s

/-! ### What RE takes (43_receiver.md R201, R202) -/

/-- RE with the datagram `d` in its buffer, cut to 84 bytes, of which `n` are its own (20_memory.md R70). -/
def rxLoad (d : Datagram) (re : Receiver) : Receiver :=
  { re with rxbuf := overwrite re.rxbuf (rxKept d), rxn := (rxKept d).length }

/-- RE takes the datagram `d` from CHD, of which `q` is left (R201, R202). -/
def reTake (d : Datagram) (q : List Datagram) (s : State) : State :=
  match decodeFrame (rxKept d).length (rxLoad d s.re).rxbuf with
  | .error _ => raiseFault .re .malformedFrame { s with chd := q, re := rxLoad d s.re }
  | .ok f =>
    if f.len = 0#16 then { s with chd := q, re := { rxLoad d s.re with state := .done } }
    else if seqBit f.seq = s.re.expected then
      { s with chd := q, re := { rxLoad d s.re with rlen := f.len, rseq := f.seq, state := .deliver } }
    else
      { s with
        chd := q
        re := { rxLoad d s.re with
          rlen := f.len, rseq := f.seq, duplicates := s.re.duplicates + 1#32, state := .ack } }

/-- The classes of R98 that rule R202 handles; the others are rule R201's. -/
def isDataClass : FrameClass → Bool
  | .dataMatch => true
  | .dataDup => true
  | .short => false
  | .eot => false
  | .overlong => false

/-- RE in R_WAIT meets an ERR, or takes element `i` of CHD if it is a data frame (`data`) or is none. -/
def reRecv (data : Bool) (rx : Recv) (s : State) : State :=
  if s.re.state = .wait then
    match rx with
    | .err => raiseFault .re .rxError s
    | .dgram i keep =>
      match deliverAt s.params.channelMode s.chd i keep with
      | some (d, q) => if isDataClass (frameClass s.re.expected (rxKept d)) = data then reTake d q s else s
      | none => s
  else s

/-- RE in R_WAIT takes the datagram `d` of the class `k` (R98). -/
def reTakeClass (k : FrameClass) (d : Datagram) (keep : Bool) (s : State) : State :=
  if s.re.state = .wait ∧ frameClass s.re.expected (rxKept d) = k then
    match deliverThis s.params.channelMode s.chd d keep with
    | some q => reTake d q s
    | none => s
  else s

/-! ### What RE delivers and sends (R203, R204) -/

/-- RE in R_DELIVER hands the payload to SNK (R203), past whose free bytes the counter advances. -/
def deliverPayload (r : Resp) (s : State) : State :=
  if s.re.state = .deliver then
    { sinkWrite (rxPayload s.freeCtr s.re) r { s with freeCtr := s.freeCtr + rxMissing s.re } with
      delivered := s.delivered ++ rxPayload s.freeCtr s.re
      re := { s.re with
        sinkErr := s.re.sinkErr || decide (r = .err)
        expected := s.re.expected ^^^ 1#1
        accepted := s.re.accepted + 1#32
        bytes := s.re.bytes + s.re.rlen.setWidth 32
        state := .ack } }
  else s

/-- RE's sample, if the step has one (41_loss_gate.md R143). -/
def reSample (smp : Option Half) (s : State) : Option (Half × Half) := drawSample s.re.sampleExt s.re.lfsr smp

/-- One acknowledgment with the sample `u`, the LFSR going to `l` (R204). -/
def ackWith (u l : Half) (r : Resp) (s : State) : State :=
  if shouldDrop s.re.lossP u then
    { s with re := { s.re with lfsr := l, ackDropped := s.re.ackDropped + 1#32, state := .wait } }
  else
    match r with
    | .err => raiseFault .re .txError { s with re := { s.re with lfsr := l } }
    | .ok =>
      { s with
        cha := s.cha ++ [encodeAck s.re.rseq]
        re := { s.re with lfsr := l, ackTx := s.re.ackTx + 1#32, state := .wait } }

/-- RE in R_ACK generates the acknowledgment (R204). -/
def ackAttempt (smp : Option Half) (r : Resp) (s : State) : State :=
  if s.re.state = .ack then
    match reSample smp s with
    | some (u, l) => ackWith u l r s
    | none => s
  else s

/-- The acknowledgment that the machine would generate now is sent, and is `a` (R94, R204). -/
def emitsAck (a : Half) (smp : Option Half) (s : State) : Bool :=
  decide (s.re.state = .ack ∧ s.re.rseq = a) &&
    match reSample smp s with
    | some (u, _) => !shouldDrop s.re.lossP u
    | none => false

end Sys2Proof.Machine
end

