-- ==== Sys2Proof/Machine/Emitted.lean ====
section
/-! DEFINITION. The emitted messages of the opcode table (30_encoding.md R92 to R95): each is the engine step that offers
this message on its port, and is not enabled where the machine would offer none or another (log 13). -/

namespace Sys2Proof.Machine

/-- TX_DATA: the attempt of R165 that the gate lets through, with this frame. -/
def execTxData (seq : Bit) (payload : List Byte) (smp : Option Half) (r : Resp) (s : State) :
    Host.Outcome State Fault Refusal :=
  .next (if emitsData seq payload smp s then sendAttempt smp r s else s)

/-- TX_EOT: the step of R168, with this sequence bit. -/
def execTxEot (seq : Bit) (r : Resp) (s : State) : Host.Outcome State Fault Refusal :=
  .next (if s.se.seq = seq then sendEot r s else s)

/-- TX_NOTFOUND: the step of R169, whose frame has the header `len`, 0 (R95). -/
def execTxNotfound (len : Half) (r : Resp) (s : State) : Host.Outcome State Fault Refusal :=
  .next (if s.params.notFoundMsg.bytes.length = len.toNat ∧ s.se.seq = 0#1 then sendNotice r s else s)

/-- TX_ACK: the acknowledgment of R204 that the gate lets through, with this value. -/
def execTxAck (a : Half) (smp : Option Half) (r : Resp) (s : State) : Host.Outcome State Fault Refusal :=
  .next (if emitsAck a smp s then ackAttempt smp r s else s)

end Sys2Proof.Machine
end

