-- ==== Sys2Proof/Machine/Frames.lean ====
section
/-! DEFINITION. The received messages of the opcode table: the frame classes at RE (30_encoding.md R98) and the ACK classes
at SE (R99). Each takes its datagram from the channel when the engine waits for one and the datagram is of its class. -/

namespace Sys2Proof.Machine

/-- FRAME_SHORT: MalformedFrame, RE faults (R201). -/
def execFrameShort (d : Datagram) (keep : Bool) (s : State) : Host.Outcome State Fault Refusal :=
  .next (reTakeClass .short d keep s)

/-- FRAME_EOT: RE goes to R_DONE (R201). -/
def execFrameEot (d : Datagram) (keep : Bool) (s : State) : Host.Outcome State Fault Refusal :=
  .next (reTakeClass .eot d keep s)

/-- FRAME_OVERLONG: MalformedFrame, RE faults (R201). -/
def execFrameOverlong (d : Datagram) (keep : Bool) (s : State) : Host.Outcome State Fault Refusal :=
  .next (reTakeClass .overlong d keep s)

/-- FRAME_DATA_MATCH: RE goes to R_DELIVER (R202). -/
def execFrameDataMatch (d : Datagram) (keep : Bool) (s : State) : Host.Outcome State Fault Refusal :=
  .next (reTakeClass .dataMatch d keep s)

/-- FRAME_DATA_DUP: RE counts a duplicate and goes to R_ACK (R202). -/
def execFrameDataDup (d : Datagram) (keep : Bool) (s : State) : Host.Outcome State Fault Refusal :=
  .next (reTakeClass .dataDup d keep s)

/-- ACK_MALFORMED: SE faults (R166). -/
def execAckMalformed (d : Datagram) (keep : Bool) (s : State) : Host.Outcome State Fault Refusal :=
  .next (seTakeClass .malformed d keep s)

/-- ACK_MATCH: accepted, SE flips its bit and reads the next chunk (R166). -/
def execAckMatch (d : Datagram) (keep : Bool) (s : State) : Host.Outcome State Fault Refusal :=
  .next (seTakeClass .hit d keep s)

/-- ACK_MISMATCH: discarded, SE sends again and counts nothing (R166). -/
def execAckMismatch (d : Datagram) (keep : Bool) (s : State) : Host.Outcome State Fault Refusal :=
  .next (seTakeClass .mismatch d keep s)

end Sys2Proof.Machine
end

