-- ==== Sys2Proof/Machine/HostCommands.lean ====
section
/-! DEFINITION. The HOST's accesses (45_host_commands.md R250 to R258). Each completes with a response (log 11). -/

namespace Sys2Proof.Machine

/-- S_START (R253); bits 31:2 are ignored (R101). -/
def execSStart (_hi : BitVec 30) (s : State) : Host.Outcome State Fault Refusal :=
  .next (respond .writeOk (startSe s))

/-- S_SOFT_RESET (R255, R257); the other bits are ignored. -/
def execSSoftReset (_hi : BitVec 30) (_b0 : Bit) (s : State) : Host.Outcome State Fault Refusal :=
  .next (respond .writeOk (softResetSe s))

/-- R_START (R254); bits 31:2 are ignored. -/
def execRStart (_hi : BitVec 30) (s : State) : Host.Outcome State Fault Refusal :=
  .next (respond .writeOk (startRe s))

/-- R_SOFT_RESET (R256, R257); the other bits are ignored. -/
def execRSoftReset (_hi : BitVec 30) (_b0 : Bit) (s : State) : Host.Outcome State Fault Refusal :=
  .next (respond .writeOk (softResetRe s))

/-- CTRL_NOP: no command and no effect (R101). -/
def execCtrlNop (_e : Engine) (_hi : BitVec 30) (s : State) : Host.Outcome State Fault Refusal :=
  .next (respond .writeOk s)

/-- CFG_WRITE (R258). -/
def execCfgWrite (reg : CfgReg) (v : Word) (s : State) : Host.Outcome State Fault Refusal :=
  .next (respond .writeOk (writeCfg reg v s))

/-- RO_WRITE: no effect (R252, R61); an access that is not admitted answers ERR (R62). -/
def execRoWrite (off : Word) (w : Width) (_v : Word) (s : State) : Host.Outcome State Fault Refusal :=
  .next (respond (if admitted off w then .writeOk else .err) s)

/-- CSR_READ (R251); an access that is not admitted answers ERR (R62). -/
def execCsrRead (off : Word) (w : Width) (s : State) : Host.Outcome State Fault Refusal :=
  .next (respond (if admitted off w then .readOk (readAt s off.toNat) else .err) s)

end Sys2Proof.Machine
end

