-- ==== Sys2Proof/Machine/ReceiverSteps.lean ====
section
/-! DEFINITION. The steps of RE (43_receiver.md R201 to R204). -/

namespace Sys2Proof.Machine

/-- RE_WAIT: an ERR, an EOT or a malformed frame (R201). -/
def execReWait (rx : Recv) (s : State) : Host.Outcome State Fault Refusal :=
  .next (reRecv false rx s)

/-- RE_WAIT_DATA: a data frame (R202). -/
def execReWaitData (i : Nat) (keep : Bool) (s : State) : Host.Outcome State Fault Refusal :=
  .next (reRecv true (.dgram i keep) s)

/-- RE_DELIVER (R203). -/
def execReDeliver (r : Resp) (s : State) : Host.Outcome State Fault Refusal :=
  .next (deliverPayload r s)

/-- RE_ACK (R204). -/
def execReAck (smp : Option Half) (r : Resp) (s : State) : Host.Outcome State Fault Refusal :=
  .next (ackAttempt smp r s)

end Sys2Proof.Machine
end

