-- ==== Sys2Proof/Machine/SenderSteps.lean ====
section
/-! DEFINITION. The steps of SE (42_sender.md R163 to R169) and the timebase (R170, R171). -/

namespace Sys2Proof.Machine

/-- SE_READ_END (R163). -/
def execSeReadEnd (len : BitVec 7) (_b : List Byte) (s : State) : Host.Outcome State Fault Refusal :=
  .next (seSourceEnd len s)

/-- SE_READ_CHUNK (R164). -/
def execSeReadChunk (b : List Byte) (s : State) : Host.Outcome State Fault Refusal :=
  .next (seChunk b s)

/-- SE_SEND (R165). -/
def execSeSend (smp : Option Half) (r : Resp) (s : State) : Host.Outcome State Fault Refusal :=
  .next (sendAttempt smp r s)

/-- SE_WAIT_RX (R166). -/
def execSeWaitRx (rx : Recv) (s : State) : Host.Outcome State Fault Refusal :=
  .next (seRecv rx s)

/-- SE_WAIT_TIMEOUT (R167). -/
def execSeWaitTimeout (s : State) : Host.Outcome State Fault Refusal :=
  .next (seExpire s)

/-- SE_EOT (R168). -/
def execSeEot (r : Resp) (s : State) : Host.Outcome State Fault Refusal :=
  .next (sendEot r s)

/-- SE_NOTFOUND (R169). -/
def execSeNotfound (r : Resp) (s : State) : Host.Outcome State Fault Refusal :=
  .next (sendNotice r s)

/-- TICK: `k` pulses (R170, R171). -/
def execTick (k : Nat) (s : State) : Host.Outcome State Fault Refusal :=
  .next { s with se := tickMany s.params.zeroTimeout k s.se }

end Sys2Proof.Machine
end

