-- ==== Sys2Proof/Machine/Dispatch.lean ====
section
/-! DEFINITION. One arm per constructor of Instr, each one call of its meaning. -/

namespace Sys2Proof.Machine

def exec (i : Instr) (s : State) : Host.Outcome State Fault Refusal :=
  match i with
  | .frameShort d keep => Sys2Proof.Machine.execFrameShort d keep s
  | .frameEot d keep => Sys2Proof.Machine.execFrameEot d keep s
  | .frameOverlong d keep => Sys2Proof.Machine.execFrameOverlong d keep s
  | .frameDataMatch d keep => Sys2Proof.Machine.execFrameDataMatch d keep s
  | .frameDataDup d keep => Sys2Proof.Machine.execFrameDataDup d keep s
  | .ackMalformed d keep => Sys2Proof.Machine.execAckMalformed d keep s
  | .ackMatch d keep => Sys2Proof.Machine.execAckMatch d keep s
  | .ackMismatch d keep => Sys2Proof.Machine.execAckMismatch d keep s
  | .txData seq payload smp r => Sys2Proof.Machine.execTxData seq payload smp r s
  | .txEot seq r => Sys2Proof.Machine.execTxEot seq r s
  | .txNotfound len r => Sys2Proof.Machine.execTxNotfound len r s
  | .txAck a smp r => Sys2Proof.Machine.execTxAck a smp r s
  | .sStart hi => Sys2Proof.Machine.execSStart hi s
  | .sSoftReset hi b0 => Sys2Proof.Machine.execSSoftReset hi b0 s
  | .rStart hi => Sys2Proof.Machine.execRStart hi s
  | .rSoftReset hi b0 => Sys2Proof.Machine.execRSoftReset hi b0 s
  | .ctrlNop e hi => Sys2Proof.Machine.execCtrlNop e hi s
  | .cfgWrite reg v => Sys2Proof.Machine.execCfgWrite reg v s
  | .roWrite off w v => Sys2Proof.Machine.execRoWrite off w v s
  | .csrRead off w => Sys2Proof.Machine.execCsrRead off w s
  | .seReadEnd len b => Sys2Proof.Machine.execSeReadEnd len b s
  | .seReadChunk b => Sys2Proof.Machine.execSeReadChunk b s
  | .seSend smp r => Sys2Proof.Machine.execSeSend smp r s
  | .seWaitRx rx => Sys2Proof.Machine.execSeWaitRx rx s
  | .seWaitTimeout => Sys2Proof.Machine.execSeWaitTimeout s
  | .seEot r => Sys2Proof.Machine.execSeEot r s
  | .seNotfound r => Sys2Proof.Machine.execSeNotfound r s
  | .tick k => Sys2Proof.Machine.execTick k s
  | .reWait rx => Sys2Proof.Machine.execReWait rx s
  | .reWaitData n keep => Sys2Proof.Machine.execReWaitData n keep s
  | .reDeliver r => Sys2Proof.Machine.execReDeliver r s
  | .reAck smp r => Sys2Proof.Machine.execReAck smp r s

end Sys2Proof.Machine
end

