-- ==== Sys2Proof/Machine/Fetch.lean ====
section
/-! DEFINITION. Taking the next event of the script and decoding it, and placing a word of the opcode table so that the
next step runs it (logs 1 and 4). -/

namespace Sys2Proof.Machine

/-- What the decoder sees of the machine (20_memory.md R64; 30_encoding.md R98, R99). -/
def ctxOf (s : State) : DecodeCtx := ⟨s.params.csrBase, s.re.expected, s.se.seq⟩

/-- What the script offers: nothing (every agent waits), a move of the environment already made, an instruction with the
state in which it runs, or a word that is no instruction. -/
inductive Fetched where
  | idle
  | moved (t : State)
  | instr (i : Instr) (t : State)
  | bad (e : DecodeError)
  deriving DecidableEq, Repr

/-- The state once the first event has been taken from the script. -/
def popEvent (s : State) : State := { s with script := s.script.tail }

/-- Take the first event of the script. -/
def fetch (s : State) : Fetched :=
  match s.script with
  | [] => .idle
  | .word p bs :: _ =>
    match decode (ctxOf s) p bs with
    | .ok i => .instr i (popEvent s)
    | .error e => .bad e
  | .lose c i :: _ => .moved (loseMove c i (popEvent s))
  | .hardReset :: _ => .moved (hardReset (popEvent s))
  | .emptyChannels :: _ => .moved (emptyChannelsMove (popEvent s))
  | .freshSink :: _ => .moved (freshSinkMove (popEvent s))

/-- The state register, the datagram or the frame that the step `i` takes, put in place (log 4): the state register is the
program counter of its engine (10_state.md R22), and a datagram is taken from a channel. -/
def placeFor (i : Instr) (s : State) : State :=
  match i with
  | .frameShort d _ | .frameEot d _ | .frameOverlong d _ =>
    { s with re := { s.re with state := .wait }, chd := d :: s.chd }
  | .frameDataMatch d _ =>
    { s with re := { s.re with state := .wait, expected := seqBit (seqField (rxKept d)) }, chd := d :: s.chd }
  | .frameDataDup d _ =>
    { s with re := { s.re with state := .wait, expected := seqBit (seqField (rxKept d)) ^^^ 1#1 }, chd := d :: s.chd }
  | .ackMalformed d _ => { s with se := { s.se with state := .wait }, cha := d :: s.cha }
  | .ackMatch d _ => { s with se := { s.se with state := .wait, seq := (be16At d 0).setWidth 1 }, cha := d :: s.cha }
  | .ackMismatch d _ =>
    { s with se := { s.se with state := .wait, seq := (be16At d 0).setWidth 1 ^^^ 1#1 }, cha := d :: s.cha }
  | .txData seq payload _ _ =>
    { s with se := { loadFrame (frameBytes seq payload) s.se with state := .send, lossP := 0#17 } }
  | .txEot seq _ => { s with se := { s.se with state := .eot, seq := seq } }
  | .txNotfound _ _ => { s with se := { s.se with state := .notFound, seq := 0#1 } }
  | .seReadEnd _ _ => { s with se := { s.se with state := .read } }
  | .seSend _ _ => { s with se := { s.se with state := .send } }
  | .seWaitTimeout => { s with se := { s.se with state := .wait, texp := true } }
  | .seEot _ => { s with se := { s.se with state := .eot } }
  | .seNotfound _ => { s with se := { s.se with state := .notFound } }
  | _ => s

/-- The port word, its bus address moved into the window of this machine (20_memory.md R64). -/
def rebase (base : Word) : Port → Port
  | .csrWrite a w => .csrWrite (base + a) w
  | .csrRead a w => .csrRead (base + a) w
  | p => p

/-- `s` with a word of the opcode table as its next event. -/
def placeWord (s : State) (nbits w : Nat) : State :=
  let ev := Event.word (rebase s.params.csrBase (tableEvent nbits w).1) (tableEvent nbits w).2
  match decodeTableWord nbits w with
  | some i => placeFor i { s with script := ev :: s.script }
  | none => { s with script := ev :: s.script }

end Sys2Proof.Machine
end

