-- ==== Sys2Proof/Safety.lean ====
section
/-! DEFINITION. What a well-kept machine is, in the terms the statements use: the invariant of each engine, what the
channels may hold, and the counter relations of 44_statistics.md R234 and R235. -/

namespace Sys2Proof.Machine

/-- `f` is a data frame with the sequence bit `s` (30_encoding.md R92). -/
def IsDataFrameOf (s : Bit) (f : List Byte) : Prop :=
  ∃ p : List Byte, 1 ≤ p.length ∧ p.length ≤ 80 ∧ f = frameBytes s p

/-- What SE can have sent: a data frame or an EOT frame (R92, R93). -/
def IsSentFrame (f : List Byte) : Prop := ∃ (s : Bit) (p : List Byte), p.length ≤ 80 ∧ f = frameBytes s p

/-- SE's registers are well kept. -/
structure SeInv (se : Sender) : Prop where
  /-- TXBUF is 84 bytes (10_state.md R25). -/
  buf : se.txbuf.length = 84
  /-- S_LOSS.P is 0 to 0x10000 (R32). -/
  loss : se.lossP.toNat ≤ 65536
  /-- The LFSR never holds 0 (41_loss_gate.md R141, R145). -/
  lfsr : se.lfsr ≠ 0#16
  /-- TO_SEC and TO_SUB hold a derived timeout (42_sender.md R161). -/
  sec : se.toSec.toNat ≤ 1000000000
  sub : se.toSub.toNat < 1000
  /-- A cause is recorded in S_FAULT and only there (60_exceptions.md R281, R283). -/
  cause : se.state = .fault ↔ se.cause ≠ .none
  /-- The timer counts at most the effective wait (R165, R170). -/
  wait : se.tmr.toNat ≤ effWait se
  /-- An armed or expired timer stands only in S_WAIT, or in the S_FAULT that ended a wait (R165 to R167). -/
  timer : se.tmr ≠ 0#64 ∨ se.texp = true → se.state = .wait ∨ se.state = .fault
  /-- The wait has expired only when the timer is at 0 (R170). -/
  expiry : se.texp = true → se.tmr = 0#64
  /-- In S_SEND and S_WAIT the buffer holds the data frame of SE.SEQ (R164, R173). -/
  frame : se.state = .send ∨ se.state = .wait → IsDataFrameOf se.seq (txFrame se)
  /-- The notice is sent with sequence bit 0 (30_encoding.md R95). -/
  notice : se.state = .notFound → se.seq = 0#1

/-- RE's registers are well kept. -/
structure ReInv (re : Receiver) : Prop where
  /-- RXBUF is 84 bytes (10_state.md R26). -/
  buf : re.rxbuf.length = 84
  /-- R_LOSS.P is 0 to 0x10000 (R41). -/
  loss : re.lossP.toNat ≤ 65536
  /-- The LFSR never holds 0 (41_loss_gate.md R141, R145). -/
  lfsr : re.lfsr ≠ 0#16
  /-- The reserved state values are never entered (10_state.md R23). -/
  legal : re.state ≠ .reserved6 ∧ re.state ≠ .reserved7
  /-- A cause is recorded in R_FAULT and only there (60_exceptions.md R281, R283). -/
  cause : re.state = .fault ↔ re.cause ≠ .none
  /-- A received datagram is kept up to 84 bytes (20_memory.md R70), and one that is being delivered has its header
  (30_encoding.md R98). -/
  kept : re.rxn ≤ 84 ∧ (re.state = .deliver → 4 ≤ re.rxn)
  /-- In R_DELIVER the frame being handled has 1 to 80 payload bytes and the expected bit (43_receiver.md R202). -/
  deliver : re.state = .deliver → 1 ≤ re.rlen.toNat ∧ re.rlen.toNat ≤ 80 ∧ seqBit re.rseq = re.expected
  /-- In R_ACK the bit to acknowledge is not the expected one (R204). -/
  ack : re.state = .ack → 1 ≤ re.rlen.toNat ∧ re.rlen.toNat ≤ 80 ∧ seqBit re.rseq ≠ re.expected

/-- The machine's invariant. -/
def Inv (s : State) : Prop := SeInv s.se ∧ ReInv s.re

/-- The channels hold only what the engines send (20_memory.md R68): data and EOT frames in CHD, 2-byte ACKs in CHA. -/
def WireInv (s : State) : Prop := (∀ f ∈ s.chd, IsSentFrame f) ∧ (∀ a ∈ s.cha, a.length = 2)

/-- Neither engine has met a malformed datagram, and no byte is missing of the payload that RE is to hand over. -/
def NoMalformed (s : State) : Prop :=
  s.se.cause ≠ .malformedAck ∧ s.re.cause ≠ .malformedFrame ∧
  (s.re.state = .deliver → hdrBytes + s.re.rlen.toNat ≤ s.re.rxn)

/-- `p` is a payload that RE may hand over (40_codec.md R123): RLEN bytes, those below index `n` as received, the others any. -/
def PayloadOf (re : Receiver) (p : List Byte) : Prop :=
  p.length = re.rlen.toNat ∧ ∀ i, i < re.rlen.toNat → hdrBytes + i < re.rxn → p[i]? = re.rxbuf[hdrBytes + i]?

/-- All six SE counters are 0. -/
def seCountersZero (se : Sender) : Prop :=
  se.generated = 0#32 ∧ se.txAttempts = 0#32 ∧ se.txOk = 0#32 ∧ se.dropped = 0#32 ∧ se.acked = 0#32 ∧ se.timeouts = 0#32

/-- The relations of R234 outside S_FAULT, `m` being the number of ACK_MISMATCH datagrams taken in the session. They are
equations modulo 2^32, so they hold past a wrap as well. -/
structure SeCounters (m : BitVec 32) (se : Sender) : Prop where
  attempts : se.state ≠ .fault → se.txAttempts = se.txOk + se.dropped
  inSend : se.state = .send → se.txAttempts + 1#32 = se.generated + se.timeouts + m
  outSend : se.state ≠ .fault → se.state ≠ .send → se.txAttempts = se.generated + se.timeouts + m
  open_ : se.state = .send ∨ se.state = .wait → se.acked + 1#32 = se.generated
  closed : se.state ≠ .fault → se.state ≠ .send → se.state ≠ .wait → se.acked = se.generated
  /-- SE.SEQ is S_ACKED mod 2 on the chunk path. -/
  seq : se.state = .read ∨ se.state = .send ∨ se.state = .wait → se.seq = se.acked.setWidth 1
  /-- On the not-found path every counter is 0, and SE.SEQ is 1 after the notice. -/
  ended : se.state = .eot ∨ se.state = .done →
    se.seq = se.acked.setWidth 1 ∨ (se.seq = 1#1 ∧ seCountersZero se)
  start : se.state = .idle ∨ se.state = .notFound → m = 0#32 ∧ seCountersZero se

/-- `m` after a step from `se` to `se'`: 0 when a session begins or SE is reset, one more after an unlogged
retransmission (the only move from S_WAIT to S_SEND that counts no timeout, R166), else unchanged. -/
def mismatchesAfter (m : BitVec 32) (se se' : Sender) : BitVec 32 :=
  if se'.state = .idle ∨ (seRunning se.state = false ∧ seRunning se'.state = true) then 0#32
  else if se.state = .wait ∧ se'.state = .send ∧ se'.timeouts = se.timeouts then m + 1#32
  else m

/-- The relations of R235, the first three outside R_FAULT, again modulo 2^32; `stream` is the delivered stream of the
session. -/
structure ReCounters (stream : List Byte) (re : Receiver) : Prop where
  inAck : re.state = .ack → re.ackTx + re.ackDropped + 1#32 = re.accepted + re.duplicates
  outAck : re.state ≠ .fault → re.state ≠ .ack → re.ackTx + re.ackDropped = re.accepted + re.duplicates
  expected : re.state ≠ .fault → re.expected = re.accepted.setWidth 1
  bytes : re.bytes = BitVec.ofNat 32 stream.length

/-- Which agent makes the step of an instruction (10_state.md R20). -/
inductive Agent where
  | se | re | host | timebase
  deriving DecidableEq, Repr

/-- The agent of each row. -/
def actor : Instr → Agent
  | .frameShort _ _ => .re
  | .frameEot _ _ => .re
  | .frameOverlong _ _ => .re
  | .frameDataMatch _ _ => .re
  | .frameDataDup _ _ => .re
  | .ackMalformed _ _ => .se
  | .ackMatch _ _ => .se
  | .ackMismatch _ _ => .se
  | .txData _ _ _ _ => .se
  | .txEot _ _ => .se
  | .txNotfound _ _ => .se
  | .txAck _ _ _ => .re
  | .sStart _ => .host
  | .sSoftReset _ _ => .host
  | .rStart _ => .host
  | .rSoftReset _ _ => .host
  | .ctrlNop _ _ => .host
  | .cfgWrite _ _ => .host
  | .roWrite _ _ _ => .host
  | .csrRead _ _ => .host
  | .seReadEnd _ _ => .se
  | .seReadChunk _ => .se
  | .seSend _ _ => .se
  | .seWaitRx _ => .se
  | .seWaitTimeout => .se
  | .seEot _ => .se
  | .seNotfound _ => .se
  | .tick _ => .timebase
  | .reWait _ => .re
  | .reWaitData _ _ => .re
  | .reDeliver _ => .re
  | .reAck _ _ => .re

/-- The one state in which a step of SE may fire (42_sender.md R163 to R169), the timebase counted with SE (R170). -/
def seHome : Instr → Option SeState
  | .ackMalformed _ _ => some .wait
  | .ackMatch _ _ => some .wait
  | .ackMismatch _ _ => some .wait
  | .txData _ _ _ _ => some .send
  | .txEot _ _ => some .eot
  | .txNotfound _ _ => some .notFound
  | .seReadEnd _ _ => some .read
  | .seReadChunk _ => some .read
  | .seSend _ _ => some .send
  | .seWaitRx _ => some .wait
  | .seWaitTimeout => some .wait
  | .seEot _ => some .eot
  | .seNotfound _ => some .notFound
  | .tick _ => some .wait
  | _ => none

/-- The one state in which a step of RE may fire (43_receiver.md R201 to R204). -/
def reHome : Instr → Option ReState
  | .frameShort _ _ => some .wait
  | .frameEot _ _ => some .wait
  | .frameOverlong _ _ => some .wait
  | .frameDataMatch _ _ => some .wait
  | .frameDataDup _ _ => some .wait
  | .txAck _ _ _ => some .ack
  | .reWait _ => some .wait
  | .reWaitData _ _ => some .wait
  | .reDeliver _ => some .deliver
  | .reAck _ _ => some .ack
  | _ => none

/-- `u` is the sample of a gate and `l` its LFSR afterwards (41_loss_gate.md R143): the LFSR's next state in LFSR mode,
what the external agent offers in external mode. -/
def SampleIs (ext : Bool) (lfsr : Half) (smp : Option Half) (u l : Half) : Prop :=
  (ext = false ∧ u = lfsrStep lfsr ∧ l = u) ∨ (ext = true ∧ smp = some u ∧ l = lfsr)

/-- The SE half of the table of 70_reset_and_hazards.md R310; TXBUF and TXLEN may hold anything. -/
def SeResetValues (se : Sender) : Prop :=
  se.state = .idle ∧ se.seq = 0#1 ∧ se.texp = false ∧ se.cause = .none ∧ se.toSec = 0#32 ∧ se.toSub = 0#10 ∧
  se.tmr = 0#64 ∧ se.lfsr = 0xACE1#16 ∧ se.toExp = 0#4 ∧ se.srcMissing = false ∧ se.sampleExt = false ∧
  se.lossP = 0#17 ∧ se.seed = 0#16 ∧ se.doneIe = false ∧ se.faultIe = false ∧ seCountersZero se

/-- The RE half of the table of R310; RXBUF, RLEN and RSEQ may hold anything. -/
def ReResetValues (re : Receiver) : Prop :=
  re.state = .idle ∧ re.expected = 0#1 ∧ re.sinkErr = false ∧ re.cause = .none ∧ re.lfsr = 0xACE1#16 ∧
  re.sampleExt = false ∧ re.lossP = 0#17 ∧ re.seed = 0#16 ∧ re.doneIe = false ∧ re.faultIe = false ∧
  re.accepted = 0#32 ∧ re.duplicates = 0#32 ∧ re.bytes = 0#32 ∧ re.ackTx = 0#32 ∧ re.ackDropped = 0#32

end Sys2Proof.Machine
end

