-- ==== Sys2Proof/Certificates/Slice0/Obligations.lean ====
section
/-! DEFINITION. The statements for the provers. OBLIGATIONS.json lists them with the rules they rest on. -/

open Sys2Proof Sys2Proof.Machine

/-! ### Encoding and decoding -/

/-- Words written out from the spec decode to the instructions they stand for (30_encoding.md R98, R99, R101, R92 to R95;
10_state.md R22, R23, R28). The layout of the port beside the spec's bits is the model's own (log 2). -/
def Obligations.WrittenOutWordsDecode : Prop :=
  ∀ (b : Word) (e s : Bit),
    decode ⟨b, 0#1, s⟩ (.rxd false) [0x00#8, 0x06#8, 0x00#8, 0x00#8, 0x68#8, 0x65#8, 0x6C#8, 0x6C#8, 0x6F#8, 0x0A#8] =
      .ok (.frameDataMatch [0x00#8, 0x06#8, 0x00#8, 0x00#8, 0x68#8, 0x65#8, 0x6C#8, 0x6C#8, 0x6F#8, 0x0A#8] false) ∧
    decode ⟨b, e, s⟩ (.rxd false) [0x00#8, 0x00#8, 0xFF#8, 0xFF#8] = .ok (.frameEot [0x00#8, 0x00#8, 0xFF#8, 0xFF#8] false) ∧
    decode ⟨b, e, s⟩ (.rxd false) [0x00#8, 0x51#8, 0x00#8, 0x00#8] =
      .ok (.frameOverlong [0x00#8, 0x51#8, 0x00#8, 0x00#8] false) ∧
    decode ⟨b, e, 1#1⟩ (.rxa false) [0x00#8, 0x03#8] = .ok (.ackMismatch [0x00#8, 0x03#8] false) ∧
    decode ⟨b, e, 1#1⟩ (.rxa false) [0x00#8, 0x01#8] = .ok (.ackMatch [0x00#8, 0x01#8] false) ∧
    decode ⟨b, e, s⟩ (.csrWrite b .b4) [0x00#8, 0x00#8, 0x00#8, 0x01#8] = .ok (.sStart 0#30) ∧
    decode ⟨b, e, s⟩ (.csrWrite (b + 0x080#32) .b4) [0x00#8, 0x00#8, 0x00#8, 0x03#8] = .ok (.rSoftReset 0#30 1#1) ∧
    decode ⟨b, e, s⟩ (.csrWrite (b + 0x00C#32) .b4) [0x12#8, 0x34#8, 0xBE#8, 0xEF#8] = .ok (.cfgWrite .sSeed 0x1234BEEF#32) ∧
    decode ⟨b, e, s⟩ (.seStep (.put .ok)) [0x04#8] = .ok (.seEot .ok) ∧
    decode ⟨b, e, s⟩ (.reStep (.sink .err)) [0x02#8] = .ok (.reDeliver .err)

/-- Decoding the encoding of an instruction gives it back: no bit of an encoding is dropped. `fits` is the part of the
rows' conditions that compares with SE.SEQ and RE.EXPECTED (R98, R99). -/
def Obligations.DecodeInvertsEncode : Prop :=
  ∀ (c : DecodeCtx) (i : Instr), wellFormed i = true → fits c i = true → decode c (encode c i).1 (encode c i).2 = .ok i

/-- Every accepted word has one meaning: what the decoder accepts meets the condition of its row in the opcode table, and
encoding it gives the word back. -/
def Obligations.EncodeInvertsDecode : Prop :=
  ∀ (c : DecodeCtx) (p : Port) (bs : List Byte) (i : Instr),
    decode c p bs = .ok i → wellFormed i = true ∧ fits c i = true ∧ encode c i = (p, bs)

/-! ### The codec -/

/-- `encode` and `encodeEOT` (40_codec.md R120, R121). -/
def Obligations.EncodeBuildsFrame : Prop :=
  ∀ (s : Bit) (p : List Byte),
    encodeFrame s [] = .ok (encodeEot s) ∧ encodeEot s = [0#8, 0#8, 0#8, s.setWidth 8] ∧
    (p.length > 80 → encodeFrame s p = .error .payloadTooLarge) ∧
    (p.length ≤ 80 → ∃ f, encodeFrame s p = .ok f ∧ f.length = 4 + p.length ∧
      (f.getD 0 0#8).toNat * 256 + (f.getD 1 0#8).toNat = p.length ∧
      f.getD 2 0#8 = 0#8 ∧ f.getD 3 0#8 = s.setWidth 8 ∧ f.drop 4 = p)

/-- `decode` and the classes (R122, R98), by the length of the datagram and the length `L` that its header declares: what
fails, that an EOT has its sequence field and an empty payload, and that a data frame has its length, its sequence field
and the payload RXBUF[4 .. 4+L), which is the datagram's own bytes where it has as many; `d` is any datagram, cut to 84
bytes in a buffer of 84. -/
def Obligations.DecodeFollowsClasses : Prop :=
  ∀ (d : Datagram) (buf : List Byte) (e : Bit), buf.length = 84 →
    let b := d.take 84
    let L := (b.getD 0 0#8).toNat * 256 + (b.getD 1 0#8).toNat
    let Q := (b.getD 2 0#8).toNat * 256 + (b.getD 3 0#8).toNat
    let r := decodeFrame b.length (b ++ buf.drop b.length)
    (b.length < 4 → frameClass e b = .short ∧ r = .error .malformedFrame) ∧
    (4 ≤ b.length → L = 0 → frameClass e b = .eot ∧ ∃ q, q.toNat = Q ∧ r = .ok ⟨0#16, q, []⟩) ∧
    (4 ≤ b.length → 80 < L → frameClass e b = .overlong ∧ r = .error .malformedFrame) ∧
    (4 ≤ b.length → 1 ≤ L → L ≤ 80 →
      ∃ f, r = .ok f ∧ f.len.toNat = L ∧ f.seq.toNat = Q ∧ f.payload.length = L ∧
        f.payload = ((b ++ buf.drop b.length).drop 4).take L ∧ (4 + L ≤ b.length → f.payload = (d.drop 4).take L) ∧
        (f.seq.extractLsb' 0 1 = e → frameClass e b = .dataMatch) ∧
        (f.seq.extractLsb' 0 1 ≠ e → frameClass e b = .dataDup))

/-- What RE decodes of a frame that was encoded whole is what was encoded. -/
def Obligations.DecodeInvertsEncodeFrame : Prop :=
  ∀ (s : Bit) (p f buf : List Byte), 1 ≤ p.length → encodeFrame s p = .ok f →
    decodeFrame f.length (f ++ buf.drop f.length) = .ok ⟨BitVec.ofNat 16 p.length, s.setWidth 16, p⟩

/-- The truncated payload (R123), at the codec: where the datagram is shorter than its header declares, `decode` does not
fail, and the payload is the received bytes and then the bytes the buffer held before, whatever they are. What RE hands over
there is any (DeliverCountsOkAndErr). -/
def Obligations.TruncatedPayloadReadsBuffer : Prop :=
  ∀ (b buf : List Byte) (L : Nat),
    4 ≤ b.length → b.length < 4 + L → buf.length = 84 → 1 ≤ L → L ≤ 80 → lenField b = L →
      ∃ f, decodeFrame b.length (b ++ buf.drop b.length) = .ok f ∧ f.len.toNat = L ∧ f.seq = seqField b ∧
        f.payload = b.drop 4 ++ (buf.drop b.length).take (4 + L - b.length) ∧ f.payload.length = L

/-- `encodeAck` and `decodeAck` (R124, R125). -/
def Obligations.AckRoundTrip : Prop :=
  (∀ q : Half, (encodeAck q).length = 2 ∧ ((encodeAck q).getD 0 0#8).toNat * 256 + ((encodeAck q).getD 1 0#8).toNat = q.toNat ∧
    decodeAck (encodeAck q) = .ok q) ∧
  (∀ d : Datagram, d.length ≠ 2 → decodeAck d = .error .malformedAck) ∧
  (∀ a b : Byte, ∃ v, decodeAck [a, b] = .ok v ∧ v.toNat = a.toNat * 256 + b.toNat)

/-! ### The loss gate -/

/-- `lfsr_step` (41_loss_gate.md R145) bit by bit: a shift to the right, the mask 0xB400 toggled by the bit shifted out. So
it never leads to 0 from a state that is not 0, and never joins two states. -/
def Obligations.LfsrPermutesNonZero : Prop :=
  ∀ a b : Half,
    (∀ i, i < 16 → (lfsrStep a).getLsbD i = (a.getLsbD (i + 1) ^^ (a.getLsbD 0 && decide (i ∈ [10, 12, 13, 15])))) ∧
    (a ≠ 0#16 → lfsrStep a ≠ 0#16) ∧ (lfsrStep a = lfsrStep b → a = b)

/-- `shouldDrop` (R144): the comparison, its two extremes, and P = 1 in LFSR mode. -/
def Obligations.GateCompares : Prop :=
  ∀ (p : BitVec 17) (u : Half),
    (shouldDrop p u = true ↔ u.toNat < p.toNat) ∧ shouldDrop 0#17 u = false ∧ shouldDrop 0x10000#17 u = true ∧
    (∀ a l : Half, a ≠ 0#16 → drawSample false a none = some (u, l) → shouldDrop 1#17 u = false)

/-! ### The HOST's accesses -/

/-- What each register reads as (45_host_commands.md R251; 10_state.md R28, R29, R36 to R38, R46, R47), and that a read
changes nothing but the response. -/
def Obligations.CsrReadAnswersRegister : Prop :=
  ∀ (s : State) (off : Word) (v : Word),
    (off.toNat % 4 = 0 → off.toNat < 256 →
      exec (.csrRead off .b4) s = .next { s with bus := some (.readOk (readAt s off.toNat)) }) ∧
    ((off, v) ∈ [(0x000#32, 0#32), (0x018#32, s.se.toSec), (0x01C#32, s.se.toSub.setWidth 32),
      (0x020#32, s.se.tmr.extractLsb' 0 32), (0x024#32, s.se.tmr.extractLsb' 32 32), (0x028#32, s.se.lfsr.setWidth 32),
      (0x030#32, s.se.generated), (0x034#32, s.se.txAttempts), (0x038#32, s.se.txOk), (0x03C#32, s.se.dropped),
      (0x040#32, s.se.acked), (0x044#32, s.se.timeouts), (0x080#32, 0#32), (0x098#32, s.re.lfsr.setWidth 32),
      (0x0A0#32, s.re.accepted), (0x0A4#32, s.re.duplicates), (0x0A8#32, s.re.bytes), (0x0AC#32, s.re.ackTx),
      (0x0B0#32, s.re.ackDropped), (0x008#32, s.se.lossP.setWidth 32), (0x00C#32, s.se.seed.setWidth 32),
      (0x088#32, s.re.lossP.setWidth 32), (0x08C#32, s.re.seed.setWidth 32)] →
      exec (.csrRead off .b4) s = .next { s with bus := some (.readOk v) })

/-- An access of another width, or not at a multiple of 4, answers ERR and changes no state (20_memory.md R62). That such a
write is the row RO_WRITE, with its width, is the model's choice (log 10). -/
def Obligations.BadAccessAnswersErr : Prop :=
  ∀ (s : State) (off v : Word) (w : Width), w ≠ .b4 ∨ off.toNat % 4 ≠ 0 →
    exec (.csrRead off w) s = .next { s with bus := some .err } ∧
    exec (.roWrite off w v) s = .next { s with bus := some .err } ∧
    (∀ c : DecodeCtx, decode c (.csrRead (c.csrBase + off) w) [] = .ok (.csrRead off w) ∧
      decode c (.csrWrite (c.csrBase + off) w) (be32 v) = .ok (.roWrite off w v))

/-- The model's choice (log 9): an access outside the 256-byte window answers ERR and changes nothing, at any base of the
window, with addresses of 32 bits (log 24). -/
def Obligations.AccessOutsideWindow : Prop :=
  ∀ (s : State) (c : DecodeCtx) (addr v : Word), 256 ≤ (addr - c.csrBase).toNat →
    ∃ i j, decode c (.csrRead addr .b4) [] = .ok i ∧ exec i s = .next { s with bus := some .err } ∧
      decode c (.csrWrite addr .b4) (be32 v) = .ok j ∧ exec j s = .next { s with bus := some .err }

/-- What has no effect: a write to a status, timer, LFSR or counter register (45_host_commands.md R252), a CTRL write with
bits 1:0 = 00 (30_encoding.md R101), and any access to an offset of the window that the map does not list, which reads 0
(20_memory.md R61). All answer OK. -/
def Obligations.InertAccesses : Prop :=
  ∀ (s : State) (off v : Word) (c : DecodeCtx),
    (off ∈ [0x010#32, 0x018#32, 0x01C#32, 0x020#32, 0x024#32, 0x028#32, 0x030#32, 0x034#32, 0x038#32, 0x03C#32, 0x040#32,
        0x044#32, 0x090#32, 0x098#32, 0x0A0#32, 0x0A4#32, 0x0A8#32, 0x0AC#32, 0x0B0#32] →
      decode c (.csrWrite (c.csrBase + off) .b4) (be32 v) = .ok (.roWrite off .b4 v) ∧
      exec (.roWrite off .b4 v) s = .next { s with bus := some .writeOk }) ∧
    (off.toNat % 4 = 0 → off.toNat < 256 →
      off ∉ [0x000#32, 0x004#32, 0x008#32, 0x00C#32, 0x010#32, 0x014#32, 0x018#32, 0x01C#32, 0x020#32, 0x024#32, 0x028#32,
        0x030#32, 0x034#32, 0x038#32, 0x03C#32, 0x040#32, 0x044#32, 0x080#32, 0x084#32, 0x088#32, 0x08C#32, 0x090#32,
        0x094#32, 0x098#32, 0x0A0#32, 0x0A4#32, 0x0A8#32, 0x0AC#32, 0x0B0#32] →
      decode c (.csrWrite (c.csrBase + off) .b4) (be32 v) = .ok (.roWrite off .b4 v) ∧
      exec (.roWrite off .b4 v) s = .next { s with bus := some .writeOk } ∧
      exec (.csrRead off .b4) s = .next { s with bus := some (.readOk 0#32) }) ∧
    (v.getLsbD 0 = false → v.getLsbD 1 = false →
      decode c (.csrWrite c.csrBase .b4) (be32 v) = .ok (.ctrlNop .se (v.extractLsb' 2 30)) ∧
      decode c (.csrWrite (c.csrBase + 0x080#32) .b4) (be32 v) = .ok (.ctrlNop .re (v.extractLsb' 2 30))) ∧
    (∀ (e : Engine) (hi : BitVec 30), exec (.ctrlNop e hi) s = .next { s with bus := some .writeOk })

/-- The fields of S_STATUS and R_STATUS (10_state.md R34, R44), with every code of R22, R23 and 60_exceptions.md R281 as its
number, and of S_CFG and R_CFG (R30, R40); every other bit reads 0. -/
def Obligations.StatusAndConfigurationFields : Prop :=
  ∀ s : State,
    ((∀ p ∈ [(SeState.idle, 0#3), (.read, 1#3), (.send, 2#3), (.wait, 3#3), (.eot, 4#3), (.done, 5#3), (.fault, 6#3),
          (.notFound, 7#3)], s.se.state = p.1 ↔ (readAt s 0x010).extractLsb' 0 3 = p.2) ∧
      (readAt s 0x010).extractLsb' 3 1 = s.se.seq ∧
      (∀ p ∈ [(Cause.none, 0#4), (.payloadTooLarge, 1#4), (.malformedFrame, 2#4), (.malformedAck, 3#4), (.txError, 4#4),
          (.rxError, 5#4)], s.se.cause = p.1 ↔ (readAt s 0x010).extractLsb' 4 4 = p.2) ∧
      (readAt s 0x010).extractLsb' 8 24 = 0#24) ∧
    ((∀ p ∈ [(ReState.idle, 0#3), (.wait, 1#3), (.deliver, 2#3), (.ack, 3#3), (.done, 4#3), (.fault, 5#3),
          (.reserved6, 6#3), (.reserved7, 7#3)], s.re.state = p.1 ↔ (readAt s 0x090).extractLsb' 0 3 = p.2) ∧
      (readAt s 0x090).extractLsb' 3 1 = s.re.expected ∧
      (∀ p ∈ [(Cause.none, 0#4), (.payloadTooLarge, 1#4), (.malformedFrame, 2#4), (.malformedAck, 3#4), (.txError, 4#4),
          (.rxError, 5#4)], s.re.cause = p.1 ↔ (readAt s 0x090).extractLsb' 4 4 = p.2) ∧
      (readAt s 0x090).extractLsb' 8 1 = BitVec.ofBool s.re.sinkErr ∧ (readAt s 0x090).extractLsb' 9 23 = 0#23) ∧
    ((readAt s 0x004).extractLsb' 0 4 = s.se.toExp ∧ (readAt s 0x004).getLsbD 4 = s.se.srcMissing ∧
      (readAt s 0x004).getLsbD 5 = s.se.sampleExt ∧ (readAt s 0x004).extractLsb' 6 26 = 0#26) ∧
    ((readAt s 0x084).getLsbD 0 = s.re.sampleExt ∧ (readAt s 0x084).extractLsb' 1 31 = 0#31)

/-- The interrupt registers and lines (10_state.md R35, R45; 60_exceptions.md R286, R287). -/
def Obligations.InterruptFlags : Prop :=
  ∀ s : State,
    (∀ n : Nat, (readAt s 0x014).getLsbD n =
      ((decide (n = 0) && s.se.doneIe) || (decide (n = 1) && s.se.faultIe) ||
        decide (n = 8 ∧ s.se.state = .done) || decide (n = 9 ∧ s.se.state = .fault))) ∧
    (∀ n : Nat, (readAt s 0x094).getLsbD n =
      ((decide (n = 0) && s.re.doneIe) || (decide (n = 1) && s.re.faultIe) ||
        decide (n = 8 ∧ s.re.state = .done) || decide (n = 9 ∧ s.re.state = .fault))) ∧
    (irqS s = true ↔ (s.se.doneIe = true ∧ s.se.state = .done) ∨ (s.se.faultIe = true ∧ s.se.state = .fault)) ∧
    (irqR s = true ↔ (s.re.doneIe = true ∧ s.re.state = .done) ∨ (s.re.faultIe = true ∧ s.re.state = .fault)) ∧
    ¬ ((readAt s 0x014).getLsbD 8 = true ∧ (readAt s 0x014).getLsbD 9 = true) ∧
    ¬ ((readAt s 0x094).getLsbD 8 = true ∧ (readAt s 0x094).getLsbD 9 = true)

/-- S_START (45_host_commands.md R253), the write and its effect, with the derivation of 42_sender.md R161. -/
def Obligations.StartBeginsSenderSession : Prop :=
  ∀ (hi : BitVec 30) (s : State),
    (∀ (c : DecodeCtx) (v : Word), v.getLsbD 0 = true → v.getLsbD 1 = false →
      decode c (.csrWrite (c.csrBase + 0x000#32) .b4) (be32 v) = .ok (.sStart (v.extractLsb' 2 30))) ∧
    (s.se.state = .idle ∨ s.se.state = .done ∨ s.se.state = .fault →
      exec (.sStart hi) s = .next { s with
        bus := some .writeOk
        se := { s.se with
          generated := 0#32, txAttempts := 0#32, txOk := 0#32, dropped := 0#32, acked := 0#32, timeouts := 0#32
          seq := 0#1, cause := .none, tmr := 0#64, texp := false
          toSec := BitVec.ofNat 32 (10 ^ s.se.toExp.toNat / 1000 / 1000)
          toSub := BitVec.ofNat 10 (10 ^ s.se.toExp.toNat / 1000 % 1000)
          state := if s.se.srcMissing = true then .notFound else .read } }) ∧
    (¬ (s.se.state = .idle ∨ s.se.state = .done ∨ s.se.state = .fault) →
      exec (.sStart hi) s = .next { s with bus := some .writeOk })

/-- R_START (45_host_commands.md R254), the write and its effect. The delivered stream, which begins with the session, is
the matter of ExpectedBitFlipsOnDelivery. -/
def Obligations.StartBeginsReceiverSession : Prop :=
  ∀ (hi : BitVec 30) (s : State),
    (∀ (c : DecodeCtx) (v : Word), v.getLsbD 0 = true → v.getLsbD 1 = false →
      decode c (.csrWrite (c.csrBase + 0x080#32) .b4) (be32 v) = .ok (.rStart (v.extractLsb' 2 30))) ∧
    (s.re.state = .idle ∨ s.re.state = .done ∨ s.re.state = .fault →
      ∃ t, exec (.rStart hi) s = .next t ∧
        t.re = { s.re with
          accepted := 0#32, duplicates := 0#32, bytes := 0#32, ackTx := 0#32, ackDropped := 0#32
          expected := 0#1, cause := .none, sinkErr := false, state := .wait } ∧
        t.se = s.se ∧ t.chd = s.chd ∧ t.cha = s.cha ∧ t.sink = s.sink ∧ t.params = s.params ∧ t.script = s.script ∧
        t.freeCtr = s.freeCtr ∧ t.bus = some .writeOk) ∧
    (¬ (s.re.state = .idle ∨ s.re.state = .done ∨ s.re.state = .fault) →
      exec (.rStart hi) s = .next { s with bus := some .writeOk })

/-- The timeout that START derives from each exponent (42_sender.md R161), and the effective wait that the next attempt
arms (R162's table, which the spec marks as derived; R165's arming). -/
def Obligations.TimeoutTable : Prop :=
  ∀ (hi : BitVec 30) (s : State) (e sec sub d : Nat),
    (e, sec, sub, d) ∈ [(0, 0, 0, 0), (1, 0, 0, 0), (2, 0, 0, 0), (3, 0, 1, 1), (4, 0, 10, 10), (5, 0, 100, 100),
      (6, 1, 0, 10 ^ 6), (7, 10, 0, 10 ^ 7), (8, 100, 0, 10 ^ 8), (9, 1000, 0, 10 ^ 9), (10, 10 ^ 4, 0, 10 ^ 10),
      (11, 10 ^ 5, 0, 10 ^ 11), (12, 10 ^ 6, 0, 10 ^ 12), (13, 10 ^ 7, 0, 10 ^ 13), (14, 10 ^ 8, 0, 10 ^ 14),
      (15, 10 ^ 9, 0, 10 ^ 15)] →
    s.se.toExp.toNat = e → s.se.state = .idle ∨ s.se.state = .done ∨ s.se.state = .fault →
    ∃ t, exec (.sStart hi) s = .next t ∧ t.se.toSec.toNat = sec ∧ t.se.toSub.toNat = sub ∧ effWait t.se = d ∧
      (armWait t.se).tmr.toNat = d

/-- S_SOFT_RESET and R_SOFT_RESET (45_host_commands.md R255, R256): from every state, whatever bit 0 is (R257), the engine
is at its reset values; the other engine, the channels, the sink and the parameters are untouched. The delivered stream,
which ends with RE's session, is the matter of ExpectedBitFlipsOnDelivery. -/
def Obligations.SoftResetRestoresResetValues : Prop :=
  ∀ (hi : BitVec 30) (b0 : Bit) (s : State),
    (∃ t, exec (.sSoftReset hi b0) s = .next t ∧ SeResetValues t.se ∧ t.re = s.re ∧ t.chd = s.chd ∧ t.cha = s.cha ∧
      t.delivered = s.delivered ∧ t.sink = s.sink ∧ t.params = s.params ∧ t.script = s.script ∧ t.bus = some .writeOk) ∧
    (∃ t, exec (.rSoftReset hi b0) s = .next t ∧ ReResetValues t.re ∧ t.se = s.se ∧ t.chd = s.chd ∧ t.cha = s.cha ∧
      t.sink = s.sink ∧ t.params = s.params ∧ t.script = s.script ∧ t.bus = some .writeOk) ∧
    (∀ (c : DecodeCtx) (v : Word), v.getLsbD 1 = true →
      decode c (.csrWrite c.csrBase .b4) (be32 v) = .ok (.sSoftReset (v.extractLsb' 2 30) (v.extractLsb' 0 1)) ∧
      decode c (.csrWrite (c.csrBase + 0x080#32) .b4) (be32 v) = .ok (.rSoftReset (v.extractLsb' 2 30) (v.extractLsb' 0 1)))

/-- The values after reset (70_reset_and_hazards.md R310, R311), at State.reset and after a hard reset in any state,
which does not touch the environment (R312); SOFT_RESET does the same for one engine's half. The delivered stream is RE's
session, not the environment's, and ends with it (log 12), the matter of ExpectedBitFlipsOnDelivery. -/
def Obligations.HardResetRestoresResetValues : Prop :=
  SeResetValues State.reset.se ∧ ReResetValues State.reset.re ∧ irqS State.reset = false ∧ irqR State.reset = false ∧
  (∀ (hi : BitVec 30) (b0 : Bit) (s : State), ∃ t u,
    exec (.sSoftReset hi b0) s = .next t ∧ SeResetValues t.se ∧ t.re = s.re ∧
    exec (.rSoftReset hi b0) s = .next u ∧ ReResetValues u.re ∧ u.se = s.se) ∧
  ∀ (s : State) (rest : List Event), s.script = .hardReset :: rest →
    ∃ t, step s = .next t ∧ SeResetValues t.se ∧ ReResetValues t.re ∧ irqS t = false ∧ irqR t = false ∧
      t.chd = s.chd ∧ t.cha = s.cha ∧ t.sink = s.sink ∧ t.bus = s.bus ∧ t.params = s.params ∧ t.script = rest

/-- Configuration writes (45_host_commands.md R258), the writes and their effect: the fields of 10_state.md R30, R32, R33, R35 and R40 to R42, R45 and the
seed load of 41_loss_gate.md R141, locked while the engine runs. The reserved states of RE do not run (R27). -/
def Obligations.ConfigurationWrites : Prop :=
  ∀ (v : Word) (s : State),
    (s.se.state = .idle ∨ s.se.state = .done ∨ s.se.state = .fault →
      exec (.cfgWrite .sCfg v) s = .next { s with
        bus := some .writeOk, se := { s.se with
          toExp := v.extractLsb' 0 4, srcMissing := v.getLsbD 4, sampleExt := v.getLsbD 5 } } ∧
      exec (.cfgWrite .sLoss v) s = .next { s with
        bus := some .writeOk, se := { s.se with lossP := BitVec.ofNat 17 (min (v.toNat % 2 ^ 17) 65536) } } ∧
      exec (.cfgWrite .sSeed v) s = .next { s with
        bus := some .writeOk
        se := { s.se with
          seed := v.extractLsb' 0 16
          lfsr := if v.extractLsb' 0 16 = 0#16 then 0xACE1#16 else v.extractLsb' 0 16 } }) ∧
    (¬ (s.se.state = .idle ∨ s.se.state = .done ∨ s.se.state = .fault) →
      exec (.cfgWrite .sCfg v) s = .next { s with bus := some .writeOk } ∧
      exec (.cfgWrite .sLoss v) s = .next { s with bus := some .writeOk } ∧
      exec (.cfgWrite .sSeed v) s = .next { s with bus := some .writeOk }) ∧
    exec (.cfgWrite .sIrq v) s = .next { s with
      bus := some .writeOk, se := { s.se with doneIe := v.getLsbD 0, faultIe := v.getLsbD 1 } } ∧
    (¬ (s.re.state = .wait ∨ s.re.state = .deliver ∨ s.re.state = .ack) →
      exec (.cfgWrite .rCfg v) s = .next { s with
        bus := some .writeOk, re := { s.re with sampleExt := v.getLsbD 0 } } ∧
      exec (.cfgWrite .rLoss v) s = .next { s with
        bus := some .writeOk, re := { s.re with lossP := BitVec.ofNat 17 (min (v.toNat % 2 ^ 17) 65536) } } ∧
      exec (.cfgWrite .rSeed v) s = .next { s with
        bus := some .writeOk
        re := { s.re with
          seed := v.extractLsb' 0 16
          lfsr := if v.extractLsb' 0 16 = 0#16 then 0xACE1#16 else v.extractLsb' 0 16 } }) ∧
    (s.re.state = .wait ∨ s.re.state = .deliver ∨ s.re.state = .ack →
      exec (.cfgWrite .rCfg v) s = .next { s with bus := some .writeOk } ∧
      exec (.cfgWrite .rLoss v) s = .next { s with bus := some .writeOk } ∧
      exec (.cfgWrite .rSeed v) s = .next { s with bus := some .writeOk }) ∧
    exec (.cfgWrite .rIrq v) s = .next { s with
      bus := some .writeOk, re := { s.re with doneIe := v.getLsbD 0, faultIe := v.getLsbD 1 } } ∧
    (∀ c : DecodeCtx, ∀ p ∈ [(0x004#32, CfgReg.sCfg), (0x008#32, .sLoss), (0x00C#32, .sSeed), (0x014#32, .sIrq),
        (0x084#32, .rCfg), (0x088#32, .rLoss), (0x08C#32, .rSeed), (0x094#32, .rIrq)],
      decode c (.csrWrite (c.csrBase + p.1) .b4) (be32 v) = .ok (.cfgWrite p.2 v))

/-- A HOST access completes, and changes no channel, no sink and no parameter (R250), and of the engines at most the one
whose register it names (R293). The delivered stream of the session is kept, or empty where RE is acted on (log 12). -/
def Obligations.HostAccessFrame : Prop :=
  ∀ (i : Instr) (s : State), actor i = .host →
    ∃ t, exec i s = .next t ∧ t.chd = s.chd ∧ t.cha = s.cha ∧ t.sink = s.sink ∧ t.params = s.params ∧
      t.script = s.script ∧ t.bus.isSome = true ∧ (t.se = s.se ∨ t.re = s.re) ∧
      (t.delivered = s.delivered ∨ (t.delivered = [] ∧ t.se = s.se))

/-! ### The channels -/

/-- What a channel may deliver in each mode, and what it leaves (20_memory.md R68). That a delivery by content takes the
first of several equal datagrams is the model's choice (log 15). -/
def Obligations.ChannelDelivers : Prop :=
  ∀ (q : List Datagram) (i : Nat) (keep : Bool) (d : Datagram) (q' : List Datagram),
    (deliverAt .fifoReliable q i keep = some (d, q') ↔ i = 0 ∧ keep = false ∧ q = d :: q') ∧
    (deliverAt .fifoLossy q i keep = some (d, q') ↔
      i = 0 ∧ ((keep = false ∧ q = d :: q') ∨ (keep = true ∧ q' = q ∧ q.head? = some d))) ∧
    (deliverAt .unordered q i keep = some (d, q') ↔
      q[i]? = some d ∧ ((keep = false ∧ q' = q.eraseIdx i) ∨ (keep = true ∧ q' = q))) ∧
    (∀ m, deliverThis m q d keep = some q' ↔ deliverAt m q (q.idxOf d) keep = some (d, q'))

/-- A channel holds nothing that was not sent into it (R68): every datagram after a step was there before, or is the
one that SE or RE sends in this step from a sending state. -/
def Obligations.ChannelsForgeNothing : Prop :=
  ∀ s t : State, step s = .next t →
    (∀ f ∈ t.chd, f ∈ s.chd ∨
      (s.se.state = .send ∧ t.se.state = .wait ∧ f = s.se.txbuf.take s.se.txlen.toNat) ∨
      (s.se.state = .eot ∧ t.se.state = .done ∧ f = [0#8, 0#8, 0#8, s.se.seq.setWidth 8]) ∨
      (s.se.state = .notFound ∧ t.se.state = .eot ∧
        f = be16 (BitVec.ofNat 16 s.params.notFoundMsg.bytes.length) ++ be16 (s.se.seq.setWidth 16) ++
          s.params.notFoundMsg.bytes)) ∧
    (∀ a ∈ t.cha, a ∈ s.cha ∨ (s.re.state = .ack ∧ t.re.state = .wait ∧ a = be16 s.re.rseq)) ∧
    t.chd.length ≤ s.chd.length + 1 ∧ t.cha.length ≤ s.cha.length + 1

/-- The moves of the environment: deletion where the mode lets it (R68), empty channels and a new sink (70_reset R316);
and whatever the step, the OPEN parameters (00_scope.md R7) never change and the script only loses its first event. That
these moves are events which may come at any step is the model's choice (log 19), as are the script (log 1) and where the
parameters stand (log 8). -/
def Obligations.EnvironmentMoves : Prop :=
  (∀ (s : State) (rest : List Event) (i : Nat),
    (s.script = .lose .chd i :: rest → step s = .next { s with
      script := rest, chd := if s.params.channelMode = .fifoReliable then s.chd else s.chd.eraseIdx i }) ∧
    (s.script = .lose .cha i :: rest → step s = .next { s with
      script := rest, cha := if s.params.channelMode = .fifoReliable then s.cha else s.cha.eraseIdx i }) ∧
    (s.script = .emptyChannels :: rest → step s = .next { s with script := rest, chd := [], cha := [] }) ∧
    (s.script = .freshSink :: rest → step s = .next { s with script := rest, sink := [] })) ∧
  (∀ s t : State, step s = .next t → t.params = s.params ∧ t.script = s.script.tail)

/-! ### The sender engine -/

/-- S_READ without a chunk (42_sender.md R163). -/
def Obligations.SourceEndOrOversize : Prop :=
  ∀ (len : BitVec 7) (b : List Byte) (s : State), s.se.state = .read →
    (len = 0#7 → exec (.seReadEnd len b) s = .next { s with se := { s.se with state := .eot } }) ∧
    (80 < len.toNat →
      exec (.seReadEnd len b) s = .next { s with se := { s.se with cause := .payloadTooLarge, state := .fault } })

/-- S_READ with a chunk (R164): the frame of R92 stands in the buffer, the bytes above it are kept. -/
def Obligations.ChunkIsFramed : Prop :=
  ∀ (b : List Byte) (s : State), s.se.state = .read → 1 ≤ b.length → b.length ≤ 80 →
    ∃ f, encodeFrame s.se.seq b = .ok f ∧
      exec (.seReadChunk b) s = .next { s with se := { s.se with
        txbuf := f ++ s.se.txbuf.drop f.length, txlen := BitVec.ofNat 7 (4 + b.length)
        generated := s.se.generated + 1#32, state := .send } } ∧
      (f ++ s.se.txbuf.drop f.length).take (BitVec.ofNat 7 (4 + b.length)).toNat = f

/-- S_SEND (R165): one attempt, dropped, sent, or answered ERR. With no sample to draw (41_loss_gate.md R143) the engine
waits, which the model has as an unchanged next state (log 5). That ERR does not arm the wait is the model's choice of R165
over R291 (log 22). -/
def Obligations.SendAttemptOutcomes : Prop :=
  ∀ (smp : Option Half) (r : Resp) (u l : Half) (s : State), s.se.state = .send →
    (SampleIs s.se.sampleExt s.se.lfsr smp u l →
      (u.toNat < s.se.lossP.toNat →
        exec (.seSend smp r) s = .next { s with se := { s.se with
          lfsr := l, txAttempts := s.se.txAttempts + 1#32, dropped := s.se.dropped + 1#32
          tmr := BitVec.ofNat 64 (s.se.toSec.toNat * 1000000 + s.se.toSub.toNat), texp := false, state := .wait } }) ∧
      (s.se.lossP.toNat ≤ u.toNat →
        exec (.seSend smp .ok) s = .next { s with
          chd := s.chd ++ [s.se.txbuf.take s.se.txlen.toNat]
          se := { s.se with
            lfsr := l, txAttempts := s.se.txAttempts + 1#32, txOk := s.se.txOk + 1#32
            tmr := BitVec.ofNat 64 (s.se.toSec.toNat * 1000000 + s.se.toSub.toNat), texp := false, state := .wait } } ∧
        exec (.seSend smp .err) s = .next { s with se := { s.se with
          lfsr := l, txAttempts := s.se.txAttempts + 1#32, cause := .txError, state := .fault } })) ∧
    (s.se.sampleExt = true → exec (.seSend none r) s = .next s)

/-- TX_DATA (R92, R165): the attempt that the gate lets through emits exactly the frame of the word. The
reading of the row is log 13, the timer on ERR log 22. -/
def Obligations.DataFrameIsEmitted : Prop :=
  ∀ (seq : Bit) (payload : List Byte) (smp : Option Half) (u l : Half) (s : State),
    s.se.state = .send → SampleIs s.se.sampleExt s.se.lfsr smp u l → s.se.lossP.toNat ≤ u.toNat →
    encodeFrame seq payload = .ok (s.se.txbuf.take s.se.txlen.toNat) →
      exec (.txData seq payload smp .ok) s = .next { s with
        chd := s.chd ++ [be16 (BitVec.ofNat 16 payload.length) ++ be16 (seq.setWidth 16) ++ payload]
        se := { s.se with
          lfsr := l, txAttempts := s.se.txAttempts + 1#32, txOk := s.se.txOk + 1#32
          tmr := BitVec.ofNat 64 (s.se.toSec.toNat * 1000000 + s.se.toSub.toNat), texp := false, state := .wait } } ∧
      exec (.txData seq payload smp .err) s = .next { s with se := { s.se with
        lfsr := l, txAttempts := s.se.txAttempts + 1#32, cause := .txError, state := .fault } }

/-- S_WAIT takes a datagram or an error (R166), with the classes of R99. A match and a mismatch set SE.TMR to 0; a malformed
ACK faults before that write, as R166's pseudocode has it, which is the model's choice over R291 (log 22). -/
def Obligations.WaitTakesAck : Prop :=
  ∀ (i : Nat) (keep : Bool) (d : Datagram) (q : List Datagram) (s : State), s.se.state = .wait →
    exec (.seWaitRx .err) s = .next { s with se := { s.se with cause := .rxError, state := .fault } } ∧
    (deliverAt s.params.channelMode s.cha i keep = some (d, q) →
      (d.length ≠ 2 → exec (.seWaitRx (.dgram i keep)) s = .next { s with
        cha := q, se := { s.se with cause := .malformedAck, state := .fault } }) ∧
      (d = be16 (s.se.seq.setWidth 16) → exec (.seWaitRx (.dgram i keep)) s = .next { s with
        cha := q
        se := { s.se with
          tmr := 0#64, texp := false, acked := s.se.acked + 1#32, seq := s.se.seq ^^^ 1#1, state := .read } }) ∧
      (d.length = 2 → d ≠ be16 (s.se.seq.setWidth 16) → exec (.seWaitRx (.dgram i keep)) s = .next { s with
        cha := q, se := { s.se with tmr := 0#64, texp := false, state := .send } }))

/-- The ACK rows (R99, R166): a datagram of the row's class that CHA delivers is taken as SE_WAIT_RX takes it (the reading
of the rows is log 13). A malformed ACK faults before SE.TMR is written, the model's choice of R166 over
R291 (log 22). -/
def Obligations.AckRowsAct : Prop :=
  ∀ (keep : Bool) (d : Datagram) (q : List Datagram) (s : State), s.se.state = .wait →
    deliverThis s.params.channelMode s.cha d keep = some q →
      (d.length ≠ 2 → exec (.ackMalformed d keep) s = .next { s with
        cha := q, se := { s.se with cause := .malformedAck, state := .fault } }) ∧
      (d = be16 (s.se.seq.setWidth 16) → exec (.ackMatch d keep) s = .next { s with
        cha := q
        se := { s.se with
          tmr := 0#64, texp := false, acked := s.se.acked + 1#32, seq := s.se.seq ^^^ 1#1, state := .read } }) ∧
      (d.length = 2 → d ≠ be16 (s.se.seq.setWidth 16) → exec (.ackMismatch d keep) s = .next { s with
        cha := q, se := { s.se with tmr := 0#64, texp := false, state := .send } })

/-- The timeout (R167), enabled only when SE.TEXP is 1; before that the model has an unchanged next state (log 5). -/
def Obligations.TimeoutRetransmits : Prop :=
  ∀ s : State, s.se.state = .wait →
    (s.se.texp = true → exec .seWaitTimeout s = .next { s with se := { s.se with
      timeouts := s.se.timeouts + 1#32, texp := false, state := .send } }) ∧
    (s.se.texp = false → exec .seWaitTimeout s = .next s)

/-- S_EOT (R168, R93), by the step row and by the message row, which the model reads as the same step (log 13) and which
changes nothing with the other bit (log 5). -/
def Obligations.EotIsSentOnce : Prop :=
  ∀ s : State, s.se.state = .eot →
    (∀ i ∈ [Instr.seEot .ok, .txEot s.se.seq .ok], exec i s = .next { s with
      chd := s.chd ++ [[0#8, 0#8, 0#8, s.se.seq.setWidth 8]], se := { s.se with state := .done } }) ∧
    (∀ i ∈ [Instr.seEot .err, .txEot s.se.seq .err],
      exec i s = .next { s with se := { s.se with cause := .txError, state := .fault } }) ∧
    (∀ r, exec (.txEot (s.se.seq ^^^ 1#1) r) s = .next s)

/-- S_NOTFOUND (R169, R95), by the step row and, with the sequence bit 0 that START left, by the message row, which the
model reads as the same step (log 13) and keys by the header of the notice (log 17); no counter changes. -/
def Obligations.NoticeIsSentOnce : Prop :=
  ∀ (s : State), s.se.state = .notFound →
    ∃ f, encodeFrame s.se.seq s.params.notFoundMsg.bytes = .ok f ∧
      (∀ i ∈ [Instr.seNotfound .ok, .txNotfound (BitVec.ofNat 16 s.params.notFoundMsg.bytes.length) .ok],
        i = .seNotfound .ok ∨ s.se.seq = 0#1 → exec i s = .next { s with
          chd := s.chd ++ [f]
          se := { s.se with
            txbuf := f ++ s.se.txbuf.drop f.length, txlen := BitVec.ofNat 7 (4 + s.params.notFoundMsg.bytes.length)
            seq := s.se.seq ^^^ 1#1, state := .eot } }) ∧
      (∀ i ∈ [Instr.seNotfound .err, .txNotfound (BitVec.ofNat 16 s.params.notFoundMsg.bytes.length) .err],
        i = .seNotfound .err ∨ s.se.seq = 0#1 → exec i s = .next { s with se := { s.se with
          txbuf := f ++ s.se.txbuf.drop f.length, txlen := BitVec.ofNat 7 (4 + s.params.notFoundMsg.bytes.length)
          cause := .txError, state := .fault } }) ∧
      (s.se.seq = 0#1 → s.params.notFoundMsg = defaultMsg → f = [0x00#8, 0x0E#8, 0x00#8, 0x00#8, 0x46#8, 0x49#8, 0x4C#8,
        0x45#8, 0x20#8, 0x4E#8, 0x4F#8, 0x54#8, 0x20#8, 0x46#8, 0x4F#8, 0x55#8, 0x4E#8, 0x44#8])

/-- TICK (R170, R171): `k` pulses in S_WAIT count the timer down to 0 and no further, the last one marks the expiry;
a timer at 0 expires at once or never; in every other state a tick changes nothing. TICK of `k` is read as `k` pulses of
R170 in a row (log 21). -/
def Obligations.TickCountsDown : Prop :=
  ∀ (k : Nat) (s : State),
    (s.se.state ≠ .wait → exec (.tick k) s = .next s) ∧
    (s.se.state = .wait → k < s.se.tmr.toNat → exec (.tick k) s = .next { s with se := { s.se with
      tmr := BitVec.ofNat 64 (s.se.tmr.toNat - k) } }) ∧
    (s.se.state = .wait → s.se.tmr ≠ 0#64 → s.se.tmr.toNat ≤ k → exec (.tick k) s = .next { s with se := { s.se with
      tmr := 0#64, texp := true } }) ∧
    (s.se.state = .wait → s.se.tmr = 0#64 → 1 ≤ k → exec (.tick k) s = .next { s with se := { s.se with
      texp := if s.params.zeroTimeout = .nextTick then true else s.se.texp } })

/-! ### The receiver engine -/

/-- R_WAIT, an error, an EOT or a malformed frame (43_receiver.md R201), with the truncation of 20_memory.md R70. The field
that keeps the received length is the model's (log 14). -/
def Obligations.WaitTakesEndOrMalformed : Prop :=
  ∀ (i : Nat) (keep : Bool) (d : Datagram) (q : List Datagram) (s : State), s.re.state = .wait →
    exec (.reWait .err) s = .next { s with re := { s.re with cause := .rxError, state := .fault } } ∧
    (deliverAt s.params.channelMode s.chd i keep = some (d, q) →
      let buf := d.take 84 ++ s.re.rxbuf.drop (d.take 84).length
      (d.length < 4 ∨ 80 < lenField (d.take 84) → exec (.reWait (.dgram i keep)) s = .next { s with
        chd := q, re := { s.re with rxbuf := buf, rxn := (d.take 84).length, cause := .malformedFrame, state := .fault } }) ∧
      (4 ≤ d.length → lenField (d.take 84) = 0 → exec (.reWait (.dgram i keep)) s = .next { s with
        chd := q, re := { s.re with rxbuf := buf, rxn := (d.take 84).length, state := .done } }))

/-- R_WAIT, a data frame (R202), with the duplicate test on bit 0 of the sequence field: a new frame is delivered next, a
duplicate is counted and acknowledged next. The field that keeps the received length is the model's (log 14). -/
def Obligations.WaitTakesData : Prop :=
  ∀ (i : Nat) (keep : Bool) (d : Datagram) (q : List Datagram) (s : State), s.re.state = .wait →
    deliverAt s.params.channelMode s.chd i keep = some (d, q) →
    4 ≤ d.length → 1 ≤ lenField (d.take 84) → lenField (d.take 84) ≤ 80 →
      let buf := d.take 84 ++ s.re.rxbuf.drop (d.take 84).length
      ((seqField (d.take 84)).extractLsb' 0 1 = s.re.expected →
        exec (.reWaitData i keep) s = .next { s with chd := q, re := { s.re with
          rxbuf := buf, rxn := (d.take 84).length
          rlen := BitVec.ofNat 16 (lenField (d.take 84)), rseq := seqField (d.take 84)
          state := .deliver } }) ∧
      ((seqField (d.take 84)).extractLsb' 0 1 ≠ s.re.expected →
        exec (.reWaitData i keep) s = .next { s with chd := q, re := { s.re with
          rxbuf := buf, rxn := (d.take 84).length
          rlen := BitVec.ofNat 16 (lenField (d.take 84)), rseq := seqField (d.take 84)
          duplicates := s.re.duplicates + 1#32, state := .ack } })

/-- The frame rows (30_encoding.md R98): a datagram of the row's class that CHD delivers by its content is taken as the
R_WAIT steps take it (the reading of the rows is log 13, the kept length log 14). -/
def Obligations.FrameRowsAct : Prop :=
  ∀ (keep : Bool) (d : Datagram) (q : List Datagram) (s : State), s.re.state = .wait →
    deliverThis s.params.channelMode s.chd d keep = some q →
      let b := d.take 84
      let buf := b ++ s.re.rxbuf.drop b.length
      (d.length < 4 → exec (.frameShort d keep) s = .next { s with
        chd := q, re := { s.re with rxbuf := buf, rxn := b.length, cause := .malformedFrame, state := .fault } }) ∧
      (4 ≤ d.length → lenField b = 0 → exec (.frameEot d keep) s = .next { s with
        chd := q, re := { s.re with rxbuf := buf, rxn := b.length, state := .done } }) ∧
      (4 ≤ d.length → 80 < lenField b → exec (.frameOverlong d keep) s = .next { s with
        chd := q, re := { s.re with rxbuf := buf, rxn := b.length, cause := .malformedFrame, state := .fault } }) ∧
      (4 ≤ d.length → 1 ≤ lenField b → lenField b ≤ 80 → (seqField b).extractLsb' 0 1 = s.re.expected →
        exec (.frameDataMatch d keep) s = .next { s with chd := q, re := { s.re with
          rxbuf := buf, rxn := b.length, rlen := BitVec.ofNat 16 (lenField b), rseq := seqField b
          state := .deliver } }) ∧
      (4 ≤ d.length → 1 ≤ lenField b → lenField b ≤ 80 → (seqField b).extractLsb' 0 1 ≠ s.re.expected →
        exec (.frameDataDup d keep) s = .next { s with chd := q, re := { s.re with
          rxbuf := buf, rxn := b.length, rlen := BitVec.ofNat 16 (lenField b), rseq := seqField b
          duplicates := s.re.duplicates + 1#32, state := .ack } })

/-- R_DELIVER (43_receiver.md R203): counted and the bit flipped on OK and on ERR alike. The payload is RXBUF[4 .. 4+RLEN);
of a truncated frame it has RLEN bytes as well, those past the received ones any (40_codec.md R123; log 14). The sink gains
the bytes on OK; after ERR it holds what no rule fixes (20_memory.md R67; log 23). -/
def Obligations.DeliverCountsOkAndErr : Prop :=
  ∀ s : State, s.re.state = .deliver →
    (4 + s.re.rlen.toNat ≤ s.re.rxn →
      exec (.reDeliver .ok) s = .next { s with
        delivered := s.delivered ++ (s.re.rxbuf.drop 4).take s.re.rlen.toNat
        sink := s.sink ++ (s.re.rxbuf.drop 4).take s.re.rlen.toNat
        re := { s.re with
          expected := s.re.expected ^^^ 1#1, accepted := s.re.accepted + 1#32
          bytes := s.re.bytes + s.re.rlen.setWidth 32, state := .ack } } ∧
      ∃ k n, exec (.reDeliver .err) s = .next { s with
        delivered := s.delivered ++ (s.re.rxbuf.drop 4).take s.re.rlen.toNat
        sink := k
        freeCtr := n
        re := { s.re with
          sinkErr := true, expected := s.re.expected ^^^ 1#1, accepted := s.re.accepted + 1#32
          bytes := s.re.bytes + s.re.rlen.setWidth 32, state := .ack } }) ∧
    (Inv s → ∀ r : Resp, ∃ p k n, PayloadOf s.re p ∧ (r = .ok → k = s.sink ++ p) ∧
      exec (.reDeliver r) s = .next { s with
        delivered := s.delivered ++ p
        sink := k
        freeCtr := n
        re := { s.re with
          sinkErr := s.re.sinkErr || decide (r = .err), expected := s.re.expected ^^^ 1#1
          accepted := s.re.accepted + 1#32, bytes := s.re.bytes + s.re.rlen.setWidth 32, state := .ack } })

/-- In a well-kept machine the sink is handed exactly RLEN bytes, and R_BYTES grows by their number (R203, R207;
44_statistics.md R235). -/
def Obligations.BytesCountDeliveredStream : Prop :=
  ∀ (r : Resp) (s t : State), Inv s → s.re.state = .deliver → exec (.reDeliver r) s = .next t →
    ∃ p : List Byte, t.delivered = s.delivered ++ p ∧ p.length = s.re.rlen.toNat ∧ 1 ≤ p.length ∧ p.length ≤ 80 ∧
      t.re.bytes = s.re.bytes + BitVec.ofNat 32 p.length

/-- R_ACK (R204): the acknowledgment is dropped, sent or answered ERR. It echoes the frame's field, all 16 bits. The row
TX_ACK is the model's reading of this step (log 13); with no sample to draw the engine waits, an unchanged next state
(log 5). -/
def Obligations.AcknowledgeOutcomes : Prop :=
  ∀ (smp : Option Half) (r : Resp) (u l : Half) (s : State), s.re.state = .ack →
    (SampleIs s.re.sampleExt s.re.lfsr smp u l →
      (u.toNat < s.re.lossP.toNat →
        exec (.reAck smp r) s = .next { s with re := { s.re with
          lfsr := l, ackDropped := s.re.ackDropped + 1#32, state := .wait } }) ∧
      (s.re.lossP.toNat ≤ u.toNat →
        (∀ i ∈ [Instr.reAck smp .ok, .txAck s.re.rseq smp .ok], exec i s = .next { s with
          cha := s.cha ++ [be16 s.re.rseq]
          re := { s.re with lfsr := l, ackTx := s.re.ackTx + 1#32, state := .wait } }) ∧
        (∀ i ∈ [Instr.reAck smp .err, .txAck s.re.rseq smp .err], exec i s = .next { s with
          re := { s.re with lfsr := l, cause := .txError, state := .fault } }))) ∧
    (s.re.sampleExt = true → exec (.reAck none r) s = .next s)

/-! ### Waiting -/

/-- A step of an engine in a state that is not the step's own changes nothing: S_IDLE, S_DONE, S_FAULT, R_IDLE, R_DONE,
R_FAULT and the reserved values have no step (42_sender.md R175; 43_receiver.md R205; 20_memory.md R69). A tick of no
pulses changes nothing in any state (log 21). -/
def Obligations.StepWaitsOutsideItsState : Prop :=
  ∀ (i : Instr) (s : State),
    (∀ h, seHome i = some h → s.se.state ≠ h → exec i s = .next s) ∧
    (∀ h, reHome i = some h → s.re.state ≠ h → exec i s = .next s) ∧
    (∀ h, seHome i = some h → h ≠ .idle ∧ h ≠ .done ∧ h ≠ .fault) ∧
    (∀ h, reHome i = some h → h ≠ .idle ∧ h ≠ .done ∧ h ≠ .fault ∧ h ≠ .reserved6 ∧ h ≠ .reserved7) ∧
    exec (.tick 0) s = .next s

/-- A received row whose datagram is of another class or is not delivered by the channel, and an emitted row whose message
the machine would not offer (another frame, another value, another header, dropped by the gate, or no sample to draw)
changes nothing: no datagram is forged (20_memory.md R68; the reading of the rows is log 13, the unchanged state log 5).
The two R_WAIT steps share the datagrams between them in the same way (43_receiver.md R201, R202). -/
def Obligations.RowsOfAnotherMessageWait : Prop :=
  ∀ (s : State) (d : Datagram) (keep : Bool) (seq : Bit) (p : List Byte) (a len u l : Half) (smp : Option Half) (r : Resp)
    (i : Nat) (q : List Datagram),
    (d ∉ s.chd ∨ deliverThis s.params.channelMode s.chd d keep = none →
      exec (.frameShort d keep) s = .next s ∧ exec (.frameEot d keep) s = .next s ∧
      exec (.frameOverlong d keep) s = .next s ∧ exec (.frameDataMatch d keep) s = .next s ∧
      exec (.frameDataDup d keep) s = .next s) ∧
    (let b := d.take 84;
      (4 ≤ d.length → exec (.frameShort d keep) s = .next s) ∧
      (d.length < 4 ∨ lenField b ≠ 0 → exec (.frameEot d keep) s = .next s) ∧
      (d.length < 4 ∨ lenField b ≤ 80 → exec (.frameOverlong d keep) s = .next s) ∧
      (d.length < 4 ∨ lenField b = 0 ∨ 80 < lenField b ∨ (seqField b).extractLsb' 0 1 ≠ s.re.expected →
        exec (.frameDataMatch d keep) s = .next s) ∧
      (d.length < 4 ∨ lenField b = 0 ∨ 80 < lenField b ∨ (seqField b).extractLsb' 0 1 = s.re.expected →
        exec (.frameDataDup d keep) s = .next s) ∧
      (deliverAt s.params.channelMode s.chd i keep = some (d, q) →
        (4 ≤ d.length ∧ 1 ≤ lenField b ∧ lenField b ≤ 80 → exec (.reWait (.dgram i keep)) s = .next s) ∧
        (d.length < 4 ∨ lenField b = 0 ∨ 80 < lenField b → exec (.reWaitData i keep) s = .next s))) ∧
    (d ∉ s.cha ∨ deliverThis s.params.channelMode s.cha d keep = none →
      exec (.ackMalformed d keep) s = .next s ∧ exec (.ackMatch d keep) s = .next s ∧
      exec (.ackMismatch d keep) s = .next s) ∧
    (d.length = 2 → exec (.ackMalformed d keep) s = .next s) ∧
    (d ≠ be16 (s.se.seq.setWidth 16) → exec (.ackMatch d keep) s = .next s) ∧
    (d.length ≠ 2 ∨ d = be16 (s.se.seq.setWidth 16) → exec (.ackMismatch d keep) s = .next s) ∧
    (deliverAt s.params.channelMode s.chd i keep = none →
      exec (.reWait (.dgram i keep)) s = .next s ∧ exec (.reWaitData i keep) s = .next s) ∧
    (deliverAt s.params.channelMode s.cha i keep = none → exec (.seWaitRx (.dgram i keep)) s = .next s) ∧
    (s.se.txbuf.take s.se.txlen.toNat ≠ frameBytes seq p ∨ (s.se.sampleExt = true ∧ smp = none) ∨
        (SampleIs s.se.sampleExt s.se.lfsr smp u l ∧ u.toNat < s.se.lossP.toNat) →
      exec (.txData seq p smp r) s = .next s) ∧
    (s.params.notFoundMsg.bytes.length ≠ len.toNat ∨ s.se.seq ≠ 0#1 → exec (.txNotfound len r) s = .next s) ∧
    (s.re.rseq ≠ a ∨ (s.re.sampleExt = true ∧ smp = none) ∨
        (SampleIs s.re.sampleExt s.re.lfsr smp u l ∧ u.toNat < s.re.lossP.toNat) →
      exec (.txAck a smp r) s = .next s)

/-! ### The step -/

/-- A step runs the decoded instruction: what the word at the head of the script decodes to, in the state without that
event (log 1). -/
def Obligations.StepRunsDecodedWord : Prop :=
  ∀ (s : State) (p : Port) (bs : List Byte) (rest : List Event) (i : Instr), s.script = .word p bs :: rest →
    decode ⟨s.params.csrBase, s.re.expected, s.se.seq⟩ p bs = .ok i → step s = exec i { s with script := rest }

/-- No instruction stops the machine: a fault of an engine is a next state (60_exceptions.md R283). A step has no
meaning only where its word is no instruction, and with no event left every agent waits (00_scope.md R12). -/
def Obligations.StepNeverFaults : Prop :=
  (∀ (i : Instr) (s : State), ∃ t, exec i s = .next t) ∧
  (∀ s : State, s.script = [] → step s = .next s) ∧
  (∀ s : State, (∃ t, step s = .next t) ∨
    ∃ p bs rest e, s.script = .word p bs :: rest ∧ decode ⟨s.params.csrBase, s.re.expected, s.se.seq⟩ p bs = .error e ∧
      step s = .refused (.undecodable e))

/-! ### The whole machine -/

/-- The invariant holds at reset. -/
def Obligations.ResetIsWellKept : Prop := Inv State.reset ∧ WireInv State.reset ∧ NoMalformed State.reset ∧
  SeCounters 0#32 State.reset.se ∧ ReCounters State.reset.delivered State.reset.re

/-- Every step keeps the invariant of both engines (Safety.lean: buffers of 84 bytes, legal states, causes recorded
exactly in the FAULT states, the timer bounded by the effective wait, the frame of SE.SEQ in the buffer while it is in
flight, the handled frame's bit against RE.EXPECTED). -/
def Obligations.StepKeepsInvariant : Prop :=
  ∀ s t : State, Inv s → step s = .next t → Inv t

/-- Channels that hold only sent frames and ACKs keep doing so, and then neither engine ever meets a malformed datagram
(60_exceptions.md R282; 92_eei_decisions.md D26, D27), nor RE a truncated frame, so that it hands over no byte that R123
leaves any. -/
def Obligations.OwnTrafficIsNeverMalformed : Prop :=
  ∀ s t : State, Inv s → WireInv s → NoMalformed s → step s = .next t → WireInv t ∧ NoMalformed t

/-- The counter relations of SE (44_statistics.md R234) are kept by every step. -/
def Obligations.SenderCountersAgree : Prop :=
  ∀ (s t : State) (m : BitVec 32), Inv s → SeCounters m s.se → step s = .next t →
    SeCounters (mismatchesAfter m s.se t.se) t.se

/-- The counter relations of RE (R235) are kept by every step, that R_BYTES is the length of the session's delivered stream
among them. -/
def Obligations.ReceiverCountersAgree : Prop :=
  ∀ s t : State, Inv s → ReCounters s.delivered s.re → step s = .next t → ReCounters t.delivered t.re

/-- Lifetime of the counters (R232): a step leaves a counter, raises it by one (R_BYTES by RLEN) while the engine runs, or
begins a session or resets the engine and leaves all of them 0. -/
def Obligations.CountersOnlyRise : Prop :=
  ∀ s t : State, step s = .next t →
    ((∀ c ∈ [(s.se.generated, t.se.generated), (s.se.txAttempts, t.se.txAttempts), (s.se.txOk, t.se.txOk),
          (s.se.dropped, t.se.dropped), (s.se.acked, t.se.acked), (s.se.timeouts, t.se.timeouts)],
        c.2 = c.1 ∨ (c.2 = c.1 + 1#32 ∧ seRunning s.se.state = true)) ∨
      (seCountersZero t.se ∧ (t.se.state = .idle ∨ (seRunning s.se.state = false ∧ seRunning t.se.state = true)))) ∧
    (((∀ c ∈ [(s.re.accepted, t.re.accepted), (s.re.duplicates, t.re.duplicates), (s.re.ackTx, t.re.ackTx),
          (s.re.ackDropped, t.re.ackDropped)],
        c.2 = c.1 ∨ (c.2 = c.1 + 1#32 ∧ reRunning s.re.state = true)) ∧
      (t.re.bytes = s.re.bytes ∨ (t.re.bytes = s.re.bytes + s.re.rlen.setWidth 32 ∧ s.re.state = .deliver))) ∨
      (t.re.accepted = 0#32 ∧ t.re.duplicates = 0#32 ∧ t.re.bytes = 0#32 ∧ t.re.ackTx = 0#32 ∧ t.re.ackDropped = 0#32 ∧
        (t.re.state = .idle ∨ (reRunning s.re.state = false ∧ t.re.state = .wait))))

/-- How the state registers move (42_sender.md R160, R175; 43_receiver.md R200, R205; 10_state.md R24): only along the arcs of
the rules or to IDLE by a reset; the reserved values of RE are left only by a reset. -/
def Obligations.StateRegisterArcs : Prop :=
  ∀ s t : State, step s = .next t →
    (t.se.state = s.se.state ∨ t.se.state = .idle ∨
      (s.se.state, t.se.state) ∈ [(.idle, .read), (.idle, .notFound), (.done, .read), (.done, .notFound), (.fault, .read),
        (.fault, .notFound), (.read, .eot), (.read, .fault), (.read, .send), (.send, .wait), (.send, .fault), (.wait, .read),
        (.wait, .send), (.wait, .fault), (.eot, .done), (.eot, .fault), (.notFound, .eot), (.notFound, SeState.fault)]) ∧
    (t.re.state = s.re.state ∨ t.re.state = .idle ∨
      (s.re.state, t.re.state) ∈ [(.idle, .wait), (.done, .wait), (.fault, .wait), (.wait, .done), (.wait, .fault),
        (.wait, .deliver), (.wait, .ack), (.deliver, .ack), (.ack, .wait), (.ack, ReState.fault)])

/-- Entering a FAULT state (60_exceptions.md R281, R283): the cause is the one of the state that faulted, the other engine
is untouched, and of the counters at most the attempt was counted. -/
def Obligations.FaultRecordsCause : Prop :=
  ∀ s t : State, step s = .next t →
    (s.se.state ≠ .fault → t.se.state = .fault →
      ((s.se.state = .read ∧ t.se.cause = .payloadTooLarge) ∨
        ((s.se.state = .send ∨ s.se.state = .eot ∨ s.se.state = .notFound) ∧ t.se.cause = .txError) ∨
        (s.se.state = .wait ∧ (t.se.cause = .rxError ∨ t.se.cause = .malformedAck))) ∧
      t.re = s.re ∧ t.se.seq = s.se.seq ∧ t.se.generated = s.se.generated ∧ t.se.txOk = s.se.txOk ∧
      t.se.dropped = s.se.dropped ∧ t.se.acked = s.se.acked ∧ t.se.timeouts = s.se.timeouts ∧
      t.se.txAttempts = (if s.se.state = .send then s.se.txAttempts + 1#32 else s.se.txAttempts)) ∧
    (s.re.state ≠ .fault → t.re.state = .fault →
      ((s.re.state = .wait ∧ (t.re.cause = .rxError ∨ t.re.cause = .malformedFrame)) ∨
        (s.re.state = .ack ∧ t.re.cause = .txError)) ∧
      t.se = s.se ∧ t.re.expected = s.re.expected ∧ t.re.accepted = s.re.accepted ∧
      t.re.duplicates = s.re.duplicates ∧ t.re.bytes = s.re.bytes ∧ t.re.ackTx = s.re.ackTx ∧
      t.re.ackDropped = s.re.ackDropped)

/-- Sequence alternation (42_sender.md R174): SE.SEQ flips on an accepted ACK and on the notice and otherwise only goes
back to 0 with a new session or a reset. -/
def Obligations.SequenceBitFlipsOnAcceptance : Prop :=
  ∀ s t : State, step s = .next t → t.se.seq = s.se.seq ∨
    (t.se.seq = s.se.seq ^^^ 1#1 ∧ s.se.state = .wait ∧ t.se.state = .read ∧ t.se.acked = s.se.acked + 1#32) ∨
    (t.se.seq = s.se.seq ^^^ 1#1 ∧ s.se.state = .notFound ∧ t.se.state = .eot) ∨
    (t.se.seq = 0#1 ∧ (t.se.state = .idle ∨ (seRunning s.se.state = false ∧ seRunning t.se.state = true)))

/-- Identical retransmission (R173): while a chunk is in flight no step changes the frame in the buffer or SE.SEQ. -/
def Obligations.FrameInFlightIsKept : Prop :=
  ∀ s t : State, step s = .next t → s.se.state = .send ∨ s.se.state = .wait → t.se.state = .send ∨ t.se.state = .wait →
    t.se.seq = s.se.seq ∧ t.se.txbuf = s.se.txbuf ∧ t.se.txlen = s.se.txlen ∧ t.se.toSec = s.se.toSec ∧
    t.se.toSub = s.se.toSub

/-- RE.EXPECTED flips exactly when a payload is handed over, and the delivered stream grows then and only then, by that
payload (43_receiver.md R203, R207; of a truncated frame R123, log 14); a new session or a reset puts the bit to 0 and begins an empty stream (20_memory.md
R67; log 12). The sink changes only when a payload is handed over or a new sink is attached (log 23). -/
def Obligations.ExpectedBitFlipsOnDelivery : Prop :=
  ∀ s t : State, step s = .next t →
    ((t.re.expected = s.re.expected ∧ t.delivered = s.delivered) ∨
      (s.re.state = .deliver ∧ t.re.state = .ack ∧ t.re.expected = s.re.expected ^^^ 1#1 ∧
        t.re.accepted = s.re.accepted + 1#32 ∧ ∃ p, t.delivered = s.delivered ++ p ∧ (Inv s → PayloadOf s.re p) ∧
          (4 + s.re.rlen.toNat ≤ s.re.rxn → p = (s.re.rxbuf.drop 4).take s.re.rlen.toNat)) ∨
      (t.re.expected = 0#1 ∧ t.delivered = [] ∧
        (t.re.state = .idle ∨ (reStartable s.re.state = true ∧ t.re.state = .wait)))) ∧
    ((reStartable s.re.state = true ∧ t.re.state = .wait) ∨ (s.re.state ≠ .idle ∧ t.re.state = .idle) → t.delivered = []) ∧
    (t.sink = s.sink ∨ (s.re.state = .deliver ∧ t.re.state = .ack) ∨
      (s.script.head? = some .freshSink ∧ t.re = s.re ∧ t.sink = []))

/-- Duplicate suppression (R206): once a data frame has been taken as new, delivered and acknowledged, the same frame taken
next is a duplicate: its payload is not delivered again. -/
def Obligations.SecondCopyIsDuplicate : Prop :=
  ∀ (s1 s2 s3 s4 : State) (d d' : Datagram) (k : Bool) (r r' : Resp) (smp : Option Half) (i : Nat) (keep : Bool)
    (q : List Datagram),
    s1.re.state = .wait → exec (.frameDataMatch d k) s1 = .next s2 → s2.re.state = .deliver →
    exec (.reDeliver r) s2 = .next s3 → exec (.reAck smp r') s3 = .next s4 → s4.re.state = .wait →
    d'.take 84 = d.take 84 → deliverAt s4.params.channelMode s4.chd i keep = some (d', q) →
      ∃ t, exec (.reWaitData i keep) s4 = .next t ∧ t.re.state = .ack ∧ t.delivered = s4.delivered ∧
        t.re.duplicates = s4.re.duplicates + 1#32 ∧ t.re.expected = s4.re.expected ∧ t.re.accepted = s4.re.accepted ∧
        t.re.rseq = s2.re.rseq

/-- The engines share nothing (00_scope.md R3; 60_exceptions.md R293): a step of one, and a tick, neither reads nor
writes the other. -/
def Obligations.EnginesShareNothing : Prop :=
  ∀ (i : Instr) (s t : State), exec i s = .next t →
    (actor i = .se ∨ actor i = .timebase → ∀ re', exec i { s with re := re' } = .next { t with re := re' }) ∧
    (actor i = .re → ∀ se', exec i { s with se := se' } = .next { t with se := se' })

/-- The frame of the engine steps: what no step of an engine or tick writes, configuration and interrupt enables of its
own engine among it (10_state.md R27, R31, R35), and which channel it may change. -/
def Obligations.EngineStepFrame : Prop :=
  ∀ (i : Instr) (s t : State), exec i s = .next t →
    (actor i = .se ∨ actor i = .timebase →
      t.re = s.re ∧ t.delivered = s.delivered ∧ t.sink = s.sink ∧ t.freeCtr = s.freeCtr ∧ t.bus = s.bus ∧
      t.script = s.script ∧ t.params = s.params ∧ t.se.toExp = s.se.toExp ∧ t.se.srcMissing = s.se.srcMissing ∧ t.se.sampleExt = s.se.sampleExt ∧
      t.se.lossP = s.se.lossP ∧ t.se.seed = s.se.seed ∧ t.se.doneIe = s.se.doneIe ∧ t.se.faultIe = s.se.faultIe ∧
      t.se.toSec = s.se.toSec ∧ t.se.toSub = s.se.toSub ∧ (s.se.state ≠ .wait → t.cha = s.cha) ∧
      (s.se.state = .wait ∨ s.se.state = .read → t.chd = s.chd) ∧ (s.se.state ≠ .send → t.se.lfsr = s.se.lfsr)) ∧
    (actor i = .re →
      t.se = s.se ∧ t.bus = s.bus ∧ t.script = s.script ∧ t.params = s.params ∧
      t.re.sampleExt = s.re.sampleExt ∧ t.re.lossP = s.re.lossP ∧ t.re.seed = s.re.seed ∧ t.re.doneIe = s.re.doneIe ∧
      t.re.faultIe = s.re.faultIe ∧ (s.re.state ≠ .wait → t.chd = s.chd ∧ t.re.rxbuf = s.re.rxbuf ∧ t.re.rxn = s.re.rxn) ∧
      (s.re.state ≠ .ack → t.cha = s.cha ∧ t.re.lfsr = s.re.lfsr) ∧
      (s.re.state ≠ .deliver → t.delivered = s.delivered ∧ t.sink = s.sink ∧ t.freeCtr = s.freeCtr))
end

