-- ==== Sys2Proof/Laws/Codec.lean ====
section
/-! SUPPORT. The small lemmas of the codec: lengths, and the header fields of a frame and of a buffer that begins with one. -/

namespace Sys2Proof

@[simp] theorem be16_length (v : Half) : (be16 v).length = 2 := rfl

theorem append_bytes (v : Half) : (v.extractLsb' 8 8 ++ v.extractLsb' 0 8 : BitVec (8 + 8)) = v := by
  ext i hi
  simp only [BitVec.getElem_append, BitVec.getElem_extractLsb']
  split <;> rw [BitVec.getLsbD_eq_getElem (by omega)] <;> congr 1 <;> omega

/-- Reading back a big-endian field, whatever follows it. -/
@[simp] theorem be16At_be16 (v : Half) (rest : List Byte) : be16At (be16 v ++ rest) 0 = v := append_bytes v

@[simp] theorem be16At_be16_alone (v : Half) : be16At (be16 v) 0 = v := append_bytes v

/-- A two-byte datagram is the encoding of its value. -/
theorem be16_be16At {d : Datagram} (h : d.length = 2) : be16 (be16At d 0) = d := by
  match d, h with
  | [a, b], _ =>
    simp only [be16, be16At, List.getD_cons_zero, List.getD_cons_succ, Nat.zero_add]
    have h1 : BitVec.extractLsb' 8 8 (a ++ b) = a := BitVec.extractLsb'_append_eq_left
    have h2 : BitVec.extractLsb' 0 8 (a ++ b) = b := BitVec.extractLsb'_append_eq_right
    exact congrArg₂ (fun x y => [x, y]) h1 h2

@[simp] theorem frameBytes_length (s : Bit) (p : List Byte) : (frameBytes s p).length = 4 + p.length := by
  simp [frameBytes]; omega

@[simp] theorem frameBytes_drop (s : Bit) (p : List Byte) : (frameBytes s p).drop 4 = p := rfl

theorem lenField_frameBytes (s : Bit) {p : List Byte} (h : p.length ≤ 80) : lenField (frameBytes s p) = p.length := by
  unfold lenField frameBytes
  rw [List.append_assoc, be16At_be16, BitVec.toNat_ofNat]
  omega

@[simp] theorem seqField_frameBytes (s : Bit) (p : List Byte) : seqField (frameBytes s p) = s.setWidth 16 :=
  append_bytes _

@[simp] theorem seqBit_setWidth (s : Bit) : seqBit (s.setWidth 16) = s := by
  revert s; decide

/-- The fields of a header are read from the first four bytes. -/
theorem be16At_append {b : List Byte} {i : Nat} (h : i + 1 < b.length) (x : List Byte) :
    be16At (b ++ x) i = be16At b i := by
  unfold be16At
  rw [List.getD_append _ _ _ _ (by omega), List.getD_append _ _ _ _ h]

theorem lenField_append {b : List Byte} (h : 4 ≤ b.length) (x : List Byte) : lenField (b ++ x) = lenField b :=
  congrArg BitVec.toNat (be16At_append (by omega) x)

theorem seqField_append {b : List Byte} (h : 4 ≤ b.length) (x : List Byte) : seqField (b ++ x) = seqField b :=
  be16At_append (by omega) x

theorem rxKept_length (d : Datagram) : (rxKept d).length = min 84 d.length := by
  simp [rxKept]

theorem rxKept_length_le (d : Datagram) : (rxKept d).length ≤ 84 := by
  rw [rxKept_length]; omega

theorem rxKept_eq {d : Datagram} (h : d.length ≤ 84) : rxKept d = d := List.take_of_length_le h

/-- A frame whose header declares its own length is its fields and its payload. -/
theorem frameBytes_fields {f : List Byte} (h : 4 ≤ f.length) (hl : f.length = 4 + lenField f)
    (hq : seqField f = (seqBit (seqField f)).setWidth 16) : frameBytes (seqBit (seqField f)) (f.drop 4) = f := by
  have h0 : be16 (be16At f 0) ++ (be16 (be16At f 2) ++ f.drop 4) = f := by
    match f, h with
    | a :: b :: c :: e :: r, _ =>
      have h1 := be16_be16At (d := [a, b]) rfl
      have h2 := be16_be16At (d := [c, e]) rfl
      have h3 : be16At (a :: b :: c :: e :: r) 0 = be16At [a, b] 0 := rfl
      have h4 : be16At (a :: b :: c :: e :: r) 2 = be16At [c, e] 0 := rfl
      rw [h3, h4, h1, h2]; rfl
  have h1 : BitVec.ofNat 16 (f.drop 4).length = be16At f 0 := by
    apply BitVec.eq_of_toNat_eq
    have : (f.drop 4).length = (be16At f 0).toNat := by simp [lenField] at hl ⊢; omega
    rw [BitVec.toNat_ofNat, this, Nat.mod_eq_of_lt (be16At f 0).isLt]
  unfold frameBytes
  rw [← hq, h1, List.append_assoc]
  exact h0

/-- A CSR value survives its four bytes. -/
theorem be32_value (v : Word) :
    (v.extractLsb' 24 8 ++ v.extractLsb' 16 8 ++ v.extractLsb' 8 8 ++ v.extractLsb' 0 8 : BitVec (8 + 8 + 8 + 8)) = v := by
  ext i hi
  simp only [BitVec.getElem_append, BitVec.getElem_extractLsb']
  repeat' split
  all_goals (rw [BitVec.getLsbD_eq_getElem (by omega)]; congr 1; omega)

end Sys2Proof
end

