-- ==== Sys2Proof/Laws/State.lean ====
section
/-! SUPPORT. One lemma per field per named update, all true by rfl, so that no later proof unfolds a record update. -/

namespace Sys2Proof.Machine

@[simp] theorem raiseFault_se_se (c : Cause) (s : State) : (raiseFault .se c s).se = { s.se with cause := c, state := .fault } := rfl
@[simp] theorem raiseFault_se_re (c : Cause) (s : State) : (raiseFault .se c s).re = s.re := rfl
@[simp] theorem raiseFault_se_chd (c : Cause) (s : State) : (raiseFault .se c s).chd = s.chd := rfl
@[simp] theorem raiseFault_se_cha (c : Cause) (s : State) : (raiseFault .se c s).cha = s.cha := rfl
@[simp] theorem raiseFault_se_delivered (c : Cause) (s : State) : (raiseFault .se c s).delivered = s.delivered := rfl
@[simp] theorem raiseFault_se_sink (c : Cause) (s : State) : (raiseFault .se c s).sink = s.sink := rfl
@[simp] theorem raiseFault_se_bus (c : Cause) (s : State) : (raiseFault .se c s).bus = s.bus := rfl
@[simp] theorem raiseFault_se_script (c : Cause) (s : State) : (raiseFault .se c s).script = s.script := rfl
@[simp] theorem raiseFault_se_params (c : Cause) (s : State) : (raiseFault .se c s).params = s.params := rfl
@[simp] theorem raiseFault_se_freeCtr (c : Cause) (s : State) : (raiseFault .se c s).freeCtr = s.freeCtr := rfl

@[simp] theorem raiseFault_re_se (c : Cause) (s : State) : (raiseFault .re c s).se = s.se := rfl
@[simp] theorem raiseFault_re_re (c : Cause) (s : State) : (raiseFault .re c s).re = { s.re with cause := c, state := .fault } := rfl
@[simp] theorem raiseFault_re_chd (c : Cause) (s : State) : (raiseFault .re c s).chd = s.chd := rfl
@[simp] theorem raiseFault_re_cha (c : Cause) (s : State) : (raiseFault .re c s).cha = s.cha := rfl
@[simp] theorem raiseFault_re_delivered (c : Cause) (s : State) : (raiseFault .re c s).delivered = s.delivered := rfl
@[simp] theorem raiseFault_re_sink (c : Cause) (s : State) : (raiseFault .re c s).sink = s.sink := rfl
@[simp] theorem raiseFault_re_bus (c : Cause) (s : State) : (raiseFault .re c s).bus = s.bus := rfl
@[simp] theorem raiseFault_re_script (c : Cause) (s : State) : (raiseFault .re c s).script = s.script := rfl
@[simp] theorem raiseFault_re_params (c : Cause) (s : State) : (raiseFault .re c s).params = s.params := rfl
@[simp] theorem raiseFault_re_freeCtr (c : Cause) (s : State) : (raiseFault .re c s).freeCtr = s.freeCtr := rfl

@[simp] theorem respond_se (b : BusResp) (s : State) : (respond b s).se = s.se := rfl
@[simp] theorem respond_re (b : BusResp) (s : State) : (respond b s).re = s.re := rfl
@[simp] theorem respond_chd (b : BusResp) (s : State) : (respond b s).chd = s.chd := rfl
@[simp] theorem respond_cha (b : BusResp) (s : State) : (respond b s).cha = s.cha := rfl
@[simp] theorem respond_delivered (b : BusResp) (s : State) : (respond b s).delivered = s.delivered := rfl
@[simp] theorem respond_sink (b : BusResp) (s : State) : (respond b s).sink = s.sink := rfl
@[simp] theorem respond_bus (b : BusResp) (s : State) : (respond b s).bus = some b := rfl
@[simp] theorem respond_script (b : BusResp) (s : State) : (respond b s).script = s.script := rfl
@[simp] theorem respond_params (b : BusResp) (s : State) : (respond b s).params = s.params := rfl
@[simp] theorem respond_freeCtr (b : BusResp) (s : State) : (respond b s).freeCtr = s.freeCtr := rfl

@[simp] theorem popEvent_se (s : State) : (popEvent s).se = s.se := rfl
@[simp] theorem popEvent_re (s : State) : (popEvent s).re = s.re := rfl
@[simp] theorem popEvent_chd (s : State) : (popEvent s).chd = s.chd := rfl
@[simp] theorem popEvent_cha (s : State) : (popEvent s).cha = s.cha := rfl
@[simp] theorem popEvent_delivered (s : State) : (popEvent s).delivered = s.delivered := rfl
@[simp] theorem popEvent_sink (s : State) : (popEvent s).sink = s.sink := rfl
@[simp] theorem popEvent_bus (s : State) : (popEvent s).bus = s.bus := rfl
@[simp] theorem popEvent_script (s : State) : (popEvent s).script = s.script.tail := rfl
@[simp] theorem popEvent_params (s : State) : (popEvent s).params = s.params := rfl
@[simp] theorem popEvent_freeCtr (s : State) : (popEvent s).freeCtr = s.freeCtr := rfl

@[simp] theorem loseMove_chd_se (i : Nat) (s : State) : (loseMove .chd i s).se = s.se := rfl
@[simp] theorem loseMove_chd_re (i : Nat) (s : State) : (loseMove .chd i s).re = s.re := rfl
@[simp] theorem loseMove_chd_chd (i : Nat) (s : State) : (loseMove .chd i s).chd = loseAt s.params.channelMode s.chd i := rfl
@[simp] theorem loseMove_chd_cha (i : Nat) (s : State) : (loseMove .chd i s).cha = s.cha := rfl
@[simp] theorem loseMove_chd_delivered (i : Nat) (s : State) : (loseMove .chd i s).delivered = s.delivered := rfl
@[simp] theorem loseMove_chd_sink (i : Nat) (s : State) : (loseMove .chd i s).sink = s.sink := rfl
@[simp] theorem loseMove_chd_bus (i : Nat) (s : State) : (loseMove .chd i s).bus = s.bus := rfl
@[simp] theorem loseMove_chd_script (i : Nat) (s : State) : (loseMove .chd i s).script = s.script := rfl
@[simp] theorem loseMove_chd_params (i : Nat) (s : State) : (loseMove .chd i s).params = s.params := rfl
@[simp] theorem loseMove_chd_freeCtr (i : Nat) (s : State) : (loseMove .chd i s).freeCtr = s.freeCtr := rfl

@[simp] theorem loseMove_cha_se (i : Nat) (s : State) : (loseMove .cha i s).se = s.se := rfl
@[simp] theorem loseMove_cha_re (i : Nat) (s : State) : (loseMove .cha i s).re = s.re := rfl
@[simp] theorem loseMove_cha_chd (i : Nat) (s : State) : (loseMove .cha i s).chd = s.chd := rfl
@[simp] theorem loseMove_cha_cha (i : Nat) (s : State) : (loseMove .cha i s).cha = loseAt s.params.channelMode s.cha i := rfl
@[simp] theorem loseMove_cha_delivered (i : Nat) (s : State) : (loseMove .cha i s).delivered = s.delivered := rfl
@[simp] theorem loseMove_cha_sink (i : Nat) (s : State) : (loseMove .cha i s).sink = s.sink := rfl
@[simp] theorem loseMove_cha_bus (i : Nat) (s : State) : (loseMove .cha i s).bus = s.bus := rfl
@[simp] theorem loseMove_cha_script (i : Nat) (s : State) : (loseMove .cha i s).script = s.script := rfl
@[simp] theorem loseMove_cha_params (i : Nat) (s : State) : (loseMove .cha i s).params = s.params := rfl
@[simp] theorem loseMove_cha_freeCtr (i : Nat) (s : State) : (loseMove .cha i s).freeCtr = s.freeCtr := rfl

@[simp] theorem emptyChannelsMove_se (s : State) : (emptyChannelsMove s).se = s.se := rfl
@[simp] theorem emptyChannelsMove_re (s : State) : (emptyChannelsMove s).re = s.re := rfl
@[simp] theorem emptyChannelsMove_chd (s : State) : (emptyChannelsMove s).chd = [] := rfl
@[simp] theorem emptyChannelsMove_cha (s : State) : (emptyChannelsMove s).cha = [] := rfl
@[simp] theorem emptyChannelsMove_delivered (s : State) : (emptyChannelsMove s).delivered = s.delivered := rfl
@[simp] theorem emptyChannelsMove_sink (s : State) : (emptyChannelsMove s).sink = s.sink := rfl
@[simp] theorem emptyChannelsMove_bus (s : State) : (emptyChannelsMove s).bus = s.bus := rfl
@[simp] theorem emptyChannelsMove_script (s : State) : (emptyChannelsMove s).script = s.script := rfl
@[simp] theorem emptyChannelsMove_params (s : State) : (emptyChannelsMove s).params = s.params := rfl
@[simp] theorem emptyChannelsMove_freeCtr (s : State) : (emptyChannelsMove s).freeCtr = s.freeCtr := rfl

@[simp] theorem freshSinkMove_se (s : State) : (freshSinkMove s).se = s.se := rfl
@[simp] theorem freshSinkMove_re (s : State) : (freshSinkMove s).re = s.re := rfl
@[simp] theorem freshSinkMove_chd (s : State) : (freshSinkMove s).chd = s.chd := rfl
@[simp] theorem freshSinkMove_cha (s : State) : (freshSinkMove s).cha = s.cha := rfl
@[simp] theorem freshSinkMove_delivered (s : State) : (freshSinkMove s).delivered = s.delivered := rfl
@[simp] theorem freshSinkMove_sink (s : State) : (freshSinkMove s).sink = [] := rfl
@[simp] theorem freshSinkMove_bus (s : State) : (freshSinkMove s).bus = s.bus := rfl
@[simp] theorem freshSinkMove_script (s : State) : (freshSinkMove s).script = s.script := rfl
@[simp] theorem freshSinkMove_params (s : State) : (freshSinkMove s).params = s.params := rfl
@[simp] theorem freshSinkMove_freeCtr (s : State) : (freshSinkMove s).freeCtr = s.freeCtr := rfl

@[simp] theorem softResetSe_se (s : State) : (softResetSe s).se = Sender.atReset (freeBytes s.freeCtr bufBytes) ((Config.freeByte (s.freeCtr + 84)).setWidth 7) := rfl
@[simp] theorem softResetSe_re (s : State) : (softResetSe s).re = s.re := rfl
@[simp] theorem softResetSe_chd (s : State) : (softResetSe s).chd = s.chd := rfl
@[simp] theorem softResetSe_cha (s : State) : (softResetSe s).cha = s.cha := rfl
@[simp] theorem softResetSe_delivered (s : State) : (softResetSe s).delivered = s.delivered := rfl
@[simp] theorem softResetSe_sink (s : State) : (softResetSe s).sink = s.sink := rfl
@[simp] theorem softResetSe_bus (s : State) : (softResetSe s).bus = s.bus := rfl
@[simp] theorem softResetSe_script (s : State) : (softResetSe s).script = s.script := rfl
@[simp] theorem softResetSe_params (s : State) : (softResetSe s).params = s.params := rfl
@[simp] theorem softResetSe_freeCtr (s : State) : (softResetSe s).freeCtr = s.freeCtr + 85 := rfl

@[simp] theorem softResetRe_se (s : State) : (softResetRe s).se = s.se := rfl
@[simp] theorem softResetRe_re (s : State) : (softResetRe s).re = Receiver.atReset (freeBytes s.freeCtr bufBytes)
    (Config.freeByte (s.freeCtr + 84) ++ Config.freeByte (s.freeCtr + 85))
    (Config.freeByte (s.freeCtr + 86) ++ Config.freeByte (s.freeCtr + 87)) := rfl
@[simp] theorem softResetRe_chd (s : State) : (softResetRe s).chd = s.chd := rfl
@[simp] theorem softResetRe_cha (s : State) : (softResetRe s).cha = s.cha := rfl
@[simp] theorem softResetRe_delivered (s : State) : (softResetRe s).delivered = [] := rfl
@[simp] theorem softResetRe_sink (s : State) : (softResetRe s).sink = s.sink := rfl
@[simp] theorem softResetRe_bus (s : State) : (softResetRe s).bus = s.bus := rfl
@[simp] theorem softResetRe_script (s : State) : (softResetRe s).script = s.script := rfl
@[simp] theorem softResetRe_params (s : State) : (softResetRe s).params = s.params := rfl
@[simp] theorem softResetRe_freeCtr (s : State) : (softResetRe s).freeCtr = s.freeCtr + 88 := rfl

@[simp] theorem hardReset_se (s : State) : (hardReset s).se = (softResetSe s).se := rfl
@[simp] theorem hardReset_re (s : State) : (hardReset s).re = (softResetRe (softResetSe s)).re := rfl
@[simp] theorem hardReset_chd (s : State) : (hardReset s).chd = s.chd := rfl
@[simp] theorem hardReset_cha (s : State) : (hardReset s).cha = s.cha := rfl
@[simp] theorem hardReset_delivered (s : State) : (hardReset s).delivered = [] := rfl
@[simp] theorem hardReset_sink (s : State) : (hardReset s).sink = s.sink := rfl
@[simp] theorem hardReset_bus (s : State) : (hardReset s).bus = s.bus := rfl
@[simp] theorem hardReset_script (s : State) : (hardReset s).script = s.script := rfl
@[simp] theorem hardReset_params (s : State) : (hardReset s).params = s.params := rfl
@[simp] theorem hardReset_freeCtr (s : State) : (hardReset s).freeCtr = s.freeCtr + 85 + 88 := rfl

@[simp] theorem sinkWrite_se (p : List Byte) (r : Resp) (s : State) : (sinkWrite p r s).se = s.se := by cases r <;> rfl
@[simp] theorem sinkWrite_re (p : List Byte) (r : Resp) (s : State) : (sinkWrite p r s).re = s.re := by cases r <;> rfl
@[simp] theorem sinkWrite_chd (p : List Byte) (r : Resp) (s : State) : (sinkWrite p r s).chd = s.chd := by cases r <;> rfl
@[simp] theorem sinkWrite_cha (p : List Byte) (r : Resp) (s : State) : (sinkWrite p r s).cha = s.cha := by cases r <;> rfl
@[simp] theorem sinkWrite_delivered (p : List Byte) (r : Resp) (s : State) : (sinkWrite p r s).delivered = s.delivered := by cases r <;> rfl
@[simp] theorem sinkWrite_bus (p : List Byte) (r : Resp) (s : State) : (sinkWrite p r s).bus = s.bus := by cases r <;> rfl
@[simp] theorem sinkWrite_script (p : List Byte) (r : Resp) (s : State) : (sinkWrite p r s).script = s.script := by cases r <;> rfl
@[simp] theorem sinkWrite_params (p : List Byte) (r : Resp) (s : State) : (sinkWrite p r s).params = s.params := by cases r <;> rfl
@[simp] theorem sinkWrite_ok_sink (p : List Byte) (s : State) : (sinkWrite p .ok s).sink = s.sink ++ p := rfl
@[simp] theorem sinkWrite_ok_freeCtr (p : List Byte) (s : State) : (sinkWrite p .ok s).freeCtr = s.freeCtr := rfl

@[simp] theorem armWait_state (s : Sender) : (armWait s).state = .wait := rfl
@[simp] theorem armWait_seq (s : Sender) : (armWait s).seq = s.seq := rfl
@[simp] theorem armWait_txbuf (s : Sender) : (armWait s).txbuf = s.txbuf := rfl
@[simp] theorem armWait_txlen (s : Sender) : (armWait s).txlen = s.txlen := rfl
@[simp] theorem armWait_toSec (s : Sender) : (armWait s).toSec = s.toSec := rfl
@[simp] theorem armWait_toSub (s : Sender) : (armWait s).toSub = s.toSub := rfl
@[simp] theorem armWait_tmr (s : Sender) : (armWait s).tmr = BitVec.ofNat 64 (effWait s) := rfl
@[simp] theorem armWait_texp (s : Sender) : (armWait s).texp = false := rfl
@[simp] theorem armWait_lfsr (s : Sender) : (armWait s).lfsr = s.lfsr := rfl
@[simp] theorem armWait_cause (s : Sender) : (armWait s).cause = s.cause := rfl
@[simp] theorem armWait_toExp (s : Sender) : (armWait s).toExp = s.toExp := rfl
@[simp] theorem armWait_srcMissing (s : Sender) : (armWait s).srcMissing = s.srcMissing := rfl
@[simp] theorem armWait_sampleExt (s : Sender) : (armWait s).sampleExt = s.sampleExt := rfl
@[simp] theorem armWait_lossP (s : Sender) : (armWait s).lossP = s.lossP := rfl
@[simp] theorem armWait_seed (s : Sender) : (armWait s).seed = s.seed := rfl
@[simp] theorem armWait_doneIe (s : Sender) : (armWait s).doneIe = s.doneIe := rfl
@[simp] theorem armWait_faultIe (s : Sender) : (armWait s).faultIe = s.faultIe := rfl
@[simp] theorem armWait_generated (s : Sender) : (armWait s).generated = s.generated := rfl
@[simp] theorem armWait_txAttempts (s : Sender) : (armWait s).txAttempts = s.txAttempts := rfl
@[simp] theorem armWait_txOk (s : Sender) : (armWait s).txOk = s.txOk := rfl
@[simp] theorem armWait_dropped (s : Sender) : (armWait s).dropped = s.dropped := rfl
@[simp] theorem armWait_acked (s : Sender) : (armWait s).acked = s.acked := rfl
@[simp] theorem armWait_timeouts (s : Sender) : (armWait s).timeouts = s.timeouts := rfl

@[simp] theorem loadFrame_state (f : List Byte) (s : Sender) : (loadFrame f s).state = s.state := rfl
@[simp] theorem loadFrame_seq (f : List Byte) (s : Sender) : (loadFrame f s).seq = s.seq := rfl
@[simp] theorem loadFrame_txbuf (f : List Byte) (s : Sender) : (loadFrame f s).txbuf = overwrite s.txbuf f := rfl
@[simp] theorem loadFrame_txlen (f : List Byte) (s : Sender) : (loadFrame f s).txlen = BitVec.ofNat 7 f.length := rfl
@[simp] theorem loadFrame_toSec (f : List Byte) (s : Sender) : (loadFrame f s).toSec = s.toSec := rfl
@[simp] theorem loadFrame_toSub (f : List Byte) (s : Sender) : (loadFrame f s).toSub = s.toSub := rfl
@[simp] theorem loadFrame_tmr (f : List Byte) (s : Sender) : (loadFrame f s).tmr = s.tmr := rfl
@[simp] theorem loadFrame_texp (f : List Byte) (s : Sender) : (loadFrame f s).texp = s.texp := rfl
@[simp] theorem loadFrame_lfsr (f : List Byte) (s : Sender) : (loadFrame f s).lfsr = s.lfsr := rfl
@[simp] theorem loadFrame_cause (f : List Byte) (s : Sender) : (loadFrame f s).cause = s.cause := rfl
@[simp] theorem loadFrame_toExp (f : List Byte) (s : Sender) : (loadFrame f s).toExp = s.toExp := rfl
@[simp] theorem loadFrame_srcMissing (f : List Byte) (s : Sender) : (loadFrame f s).srcMissing = s.srcMissing := rfl
@[simp] theorem loadFrame_sampleExt (f : List Byte) (s : Sender) : (loadFrame f s).sampleExt = s.sampleExt := rfl
@[simp] theorem loadFrame_lossP (f : List Byte) (s : Sender) : (loadFrame f s).lossP = s.lossP := rfl
@[simp] theorem loadFrame_seed (f : List Byte) (s : Sender) : (loadFrame f s).seed = s.seed := rfl
@[simp] theorem loadFrame_doneIe (f : List Byte) (s : Sender) : (loadFrame f s).doneIe = s.doneIe := rfl
@[simp] theorem loadFrame_faultIe (f : List Byte) (s : Sender) : (loadFrame f s).faultIe = s.faultIe := rfl
@[simp] theorem loadFrame_generated (f : List Byte) (s : Sender) : (loadFrame f s).generated = s.generated := rfl
@[simp] theorem loadFrame_txAttempts (f : List Byte) (s : Sender) : (loadFrame f s).txAttempts = s.txAttempts := rfl
@[simp] theorem loadFrame_txOk (f : List Byte) (s : Sender) : (loadFrame f s).txOk = s.txOk := rfl
@[simp] theorem loadFrame_dropped (f : List Byte) (s : Sender) : (loadFrame f s).dropped = s.dropped := rfl
@[simp] theorem loadFrame_acked (f : List Byte) (s : Sender) : (loadFrame f s).acked = s.acked := rfl
@[simp] theorem loadFrame_timeouts (f : List Byte) (s : Sender) : (loadFrame f s).timeouts = s.timeouts := rfl

@[simp] theorem rxLoad_state (d : Datagram) (s : Receiver) : (rxLoad d s).state = s.state := rfl
@[simp] theorem rxLoad_expected (d : Datagram) (s : Receiver) : (rxLoad d s).expected = s.expected := rfl
@[simp] theorem rxLoad_rxbuf (d : Datagram) (s : Receiver) : (rxLoad d s).rxbuf = overwrite s.rxbuf (rxKept d) := rfl
@[simp] theorem rxLoad_rxn (d : Datagram) (s : Receiver) : (rxLoad d s).rxn = (rxKept d).length := rfl
@[simp] theorem rxLoad_rlen (d : Datagram) (s : Receiver) : (rxLoad d s).rlen = s.rlen := rfl
@[simp] theorem rxLoad_rseq (d : Datagram) (s : Receiver) : (rxLoad d s).rseq = s.rseq := rfl
@[simp] theorem rxLoad_lfsr (d : Datagram) (s : Receiver) : (rxLoad d s).lfsr = s.lfsr := rfl
@[simp] theorem rxLoad_cause (d : Datagram) (s : Receiver) : (rxLoad d s).cause = s.cause := rfl
@[simp] theorem rxLoad_sinkErr (d : Datagram) (s : Receiver) : (rxLoad d s).sinkErr = s.sinkErr := rfl
@[simp] theorem rxLoad_sampleExt (d : Datagram) (s : Receiver) : (rxLoad d s).sampleExt = s.sampleExt := rfl
@[simp] theorem rxLoad_lossP (d : Datagram) (s : Receiver) : (rxLoad d s).lossP = s.lossP := rfl
@[simp] theorem rxLoad_seed (d : Datagram) (s : Receiver) : (rxLoad d s).seed = s.seed := rfl
@[simp] theorem rxLoad_doneIe (d : Datagram) (s : Receiver) : (rxLoad d s).doneIe = s.doneIe := rfl
@[simp] theorem rxLoad_faultIe (d : Datagram) (s : Receiver) : (rxLoad d s).faultIe = s.faultIe := rfl
@[simp] theorem rxLoad_accepted (d : Datagram) (s : Receiver) : (rxLoad d s).accepted = s.accepted := rfl
@[simp] theorem rxLoad_duplicates (d : Datagram) (s : Receiver) : (rxLoad d s).duplicates = s.duplicates := rfl
@[simp] theorem rxLoad_bytes (d : Datagram) (s : Receiver) : (rxLoad d s).bytes = s.bytes := rfl
@[simp] theorem rxLoad_ackTx (d : Datagram) (s : Receiver) : (rxLoad d s).ackTx = s.ackTx := rfl
@[simp] theorem rxLoad_ackDropped (d : Datagram) (s : Receiver) : (rxLoad d s).ackDropped = s.ackDropped := rfl

end Sys2Proof.Machine
end

