-- ==== Sys2Proof/Laws/Ops.lean ====
section
/-! SUPPORT. One lemma per shared operation that says everything it can do; later proofs cite these and do not unfold. -/

namespace Sys2Proof.Machine

/-! ### Buffers -/

theorem overwrite_length {buf b : List Byte} (h : b.length ≤ buf.length) : (overwrite buf b).length = buf.length := by
  simp [overwrite]; omega

@[simp] theorem freeBytes_length (k n : Nat) : (freeBytes k n).length = n := by simp [freeBytes]

/-- Where the datagram brought the whole payload, no free byte is drawn (R203). -/
theorem rxPayload_whole {re : Receiver} (k : Nat) (h : 4 + re.rlen.toNat ≤ re.rxn) :
    rxMissing re = 0 ∧ rxPayload k re = (re.rxbuf.drop 4).take re.rlen.toNat := by
  have hm : rxMissing re = 0 := by simp only [rxMissing, hdrBytes]; omega
  refine ⟨hm, ?_⟩
  rw [rxPayload, hm]
  simp [freeBytes, hdrBytes, List.drop_take, List.take_take]
  omega

/-- The payload has RLEN bytes, whatever of it is missing (R123). -/
theorem rxPayload_length {re : Receiver} (k : Nat) (hb : re.rxbuf.length = 84) (hl : re.rlen.toNat ≤ 80) :
    (rxPayload k re).length = re.rlen.toNat := by
  simp only [rxPayload, rxMissing, hdrBytes, List.length_take, List.length_drop, List.length_append, freeBytes_length, hb]
  omega

/-- The payload's received bytes are those of the buffer (R123). -/
theorem rxPayload_getElem {re : Receiver} (k : Nat) (hb : re.rxbuf.length = 84) (hl : re.rlen.toNat ≤ 80) {i : Nat}
    (hi : i < re.rlen.toNat) (hn : 4 + i < re.rxn) : (rxPayload k re)[i]? = re.rxbuf[4 + i]? := by
  have h84 : 4 + i < (re.rxbuf.take re.rxn).length := by rw [List.length_take, hb]; omega
  rw [rxPayload, List.getElem?_take_of_lt hi, List.getElem?_drop, hdrBytes, List.getElem?_append_left h84,
    List.getElem?_take_of_lt hn]

theorem rxLoad_buf_length {re : Receiver} (h : re.rxbuf.length = 84) (d : Datagram) :
    (rxLoad d re).rxbuf.length = 84 := by
  rw [rxLoad_rxbuf, overwrite_length (by rw [h]; exact rxKept_length_le d), h]

/-- The frame that was loaded is the frame in flight. -/
theorem txFrame_loadFrame {f : List Byte} (se : Sender) (h : f.length ≤ 84) : txFrame (loadFrame f se) = f := by
  have : (BitVec.ofNat 7 f.length).toNat = f.length := by rw [BitVec.toNat_ofNat]; omega
  simp [txFrame, overwrite, this]

/-! ### Channels -/

/-- What a delivery is: an element of the channel, which is left or removed. -/
theorem deliverAt_some {m : ChannelMode} {q : List Datagram} {i : Nat} {keep : Bool} {d : Datagram} {q' : List Datagram}
    (h : deliverAt m q i keep = some (d, q')) :
    channelAllows m i keep = true ∧ q[i]? = some d ∧ q' = if keep then q else q.eraseIdx i := by
  unfold deliverAt at h
  split at h
  · split at h
    · simp only [Option.some.injEq, Prod.mk.injEq] at h
      exact ⟨‹_›, by rw [← h.1]; assumption, h.2.symm⟩
    · cases h
  · cases h

/-- A delivery forges nothing and grows nothing. -/
theorem deliverAt_sub {m : ChannelMode} {q : List Datagram} {i : Nat} {keep : Bool} {d : Datagram} {q' : List Datagram}
    (h : deliverAt m q i keep = some (d, q')) : d ∈ q ∧ (∀ a ∈ q', a ∈ q) ∧ q'.length ≤ q.length := by
  obtain ⟨-, hd, rfl⟩ := deliverAt_some h
  refine ⟨List.mem_of_getElem? hd, ?_, ?_⟩ <;> split
  · exact fun a ha => ha
  · exact fun a ha => List.mem_of_mem_eraseIdx ha
  · exact Nat.le_refl _
  · exact List.length_eraseIdx_le _ _

/-- A delivery by content is a delivery of that datagram. -/
theorem deliverThis_some {m : ChannelMode} {q : List Datagram} {d : Datagram} {keep : Bool} {q' : List Datagram}
    (h : deliverThis m q d keep = some q') : deliverAt m q (q.idxOf d) keep = some (d, q') := by
  unfold deliverThis at h
  split at h
  · rename_i d' q'' hd
    cases h
    have hm := deliverAt_some hd
    have hlt : q.idxOf d < q.length := (List.getElem?_eq_some_iff.mp hm.2.1).1
    have hget : q[q.idxOf d] = d' := (List.getElem?_eq_some_iff.mp hm.2.1).2
    rw [hd, ← hget, List.getElem_idxOf hlt]
  · cases h

/-! ### The loss gate -/

theorem drawSample_some {ext : Bool} {lfsr : Half} {smp : Option Half} {u l : Half}
    (h : drawSample ext lfsr smp = some (u, l)) :
    (ext = false ∧ u = lfsrStep lfsr ∧ l = u) ∨ (ext = true ∧ smp = some u ∧ l = lfsr) := by
  unfold drawSample at h
  split at h
  · split at h
    · simp only [Option.some.injEq, Prod.mk.injEq] at h
      obtain ⟨rfl, rfl⟩ := h
      exact .inr ⟨‹_›, rfl, rfl⟩
    · cases h
  · rename_i he
    simp only [Option.some.injEq, Prod.mk.injEq] at h
    obtain ⟨rfl, rfl⟩ := h
    exact .inl ⟨by simpa using he, rfl, rfl⟩

/-- The other direction: a gate with a sample draws it. -/
theorem drawSample_of {ext : Bool} {lfsr : Half} {smp : Option Half} {u l : Half}
    (h : (ext = false ∧ u = lfsrStep lfsr ∧ l = u) ∨ (ext = true ∧ smp = some u ∧ l = lfsr)) :
    drawSample ext lfsr smp = some (u, l) := by
  obtain ⟨rfl, rfl, rfl⟩ | ⟨rfl, rfl, rfl⟩ := h <;> rfl

/-! ### The timer -/

/-- What one pulse can do in S_WAIT; elsewhere nothing. -/
theorem tickOnce_cases (z : ZeroTimeout) (se : Sender) :
    tickOnce z se = se ∨
      (se.state = .wait ∧ se.tmr ≠ 0#64 ∧
        tickOnce z se = { se with tmr := se.tmr - 1#64, texp := if se.tmr = 1#64 then true else se.texp }) ∨
      (se.state = .wait ∧ se.tmr = 0#64 ∧ z = .nextTick ∧ tickOnce z se = { se with texp := true }) := by
  unfold tickOnce
  split
  · split
    · exact .inr (.inl ⟨‹_›, ‹_›, rfl⟩)
    · cases z with
      | never => exact .inl rfl
      | nextTick => exact .inr (.inr ⟨‹_›, Decidable.not_not.mp ‹_›, rfl, rfl⟩)
  · exact .inl rfl

/-- Ticks write the timer and the expiry and nothing else. -/
theorem tickMany_frame (z : ZeroTimeout) (k : Nat) (se : Sender) :
    ∃ tmr texp, tickMany z k se = { se with tmr := tmr, texp := texp } := by
  induction k generalizing se with
  | zero => exact ⟨se.tmr, se.texp, rfl⟩
  | succ k ih =>
    obtain ⟨a, b, h⟩ := ih (tickOnce z se)
    refine ⟨a, b, ?_⟩
    rw [tickMany, h]
    obtain h1 | ⟨-, -, h1⟩ | ⟨-, -, -, h1⟩ := tickOnce_cases z se <;> rw [h1]

/-- Outside S_WAIT no number of ticks changes anything. -/
theorem tickMany_idle {z : ZeroTimeout} {se : Sender} (h : se.state ≠ .wait) (k : Nat) : tickMany z k se = se := by
  induction k with
  | zero => rfl
  | succ k ih =>
    have h1 : tickOnce z se = se := if_neg h
    rw [tickMany, h1, ih]

/-- What holds of SE and is kept by one pulse is kept by any number. -/
theorem tickMany_keeps {P : Sender → Prop} (z : ZeroTimeout) (hp : ∀ se, P se → P (tickOnce z se)) (k : Nat) (se : Sender)
    (h : P se) : P (tickMany z k se) := by
  induction k generalizing se with
  | zero => exact h
  | succ k ih => exact ih _ (hp _ h)

/-! ### The transitions -/

/-- What taking a datagram at RXA does (R166). -/
theorem seTake_cases (d : Datagram) (q : List Datagram) (s : State) :
    (d.length ≠ 2 ∧ seTake d q s = raiseFault .se .malformedAck { s with cha := q }) ∨
    (d.length = 2 ∧ be16At d 0 = s.se.seq.setWidth 16 ∧ seTake d q s = { s with
      cha := q
      se := { s.se with tmr := 0#64, texp := false, acked := s.se.acked + 1#32, seq := s.se.seq ^^^ 1#1, state := .read } }) ∨
    (d.length = 2 ∧ be16At d 0 ≠ s.se.seq.setWidth 16 ∧ seTake d q s = { s with
      cha := q, se := { s.se with tmr := 0#64, texp := false, state := .send } }) := by
  unfold seTake decodeAck
  by_cases h : d.length = 2
  · by_cases h2 : be16At d 0 = s.se.seq.setWidth 16
    · exact .inr (.inl ⟨h, h2, by simp [h, h2]⟩)
    · exact .inr (.inr ⟨h, h2, by simp [h, h2]⟩)
  · exact .inl ⟨h, by simp [h]⟩

/-- What RE decodes of the buffer with `d` in it is decided by what it keeps of `d` (R122, R98). -/
theorem frameClass_cases (e : Bit) (d : Datagram) (re : Receiver) :
    let b := rxKept d
    let r := decodeFrame b.length (rxLoad d re).rxbuf
    ((frameClass e b = .short ∨ frameClass e b = .overlong) ∧ r = .error .malformedFrame) ∨
    (frameClass e b = .eot ∧ r = .ok ⟨0#16, seqField b, []⟩) ∨
    ((frameClass e b = if seqBit (seqField b) = e then .dataMatch else .dataDup) ∧
      4 ≤ b.length ∧ 1 ≤ lenField b ∧ lenField b ≤ 80 ∧
      r = .ok ⟨be16At b 0, seqField b, ((overwrite re.rxbuf b).drop 4).take (lenField b)⟩) := by
  intro b r
  by_cases h4 : b.length < 4
  · exact .inl ⟨.inl (if_pos h4), if_pos h4⟩
  have h4' : 4 ≤ b.length := by omega
  have hl : lenField (overwrite re.rxbuf b) = lenField b := lenField_append h4' _
  have hq : seqField (overwrite re.rxbuf b) = seqField b := seqField_append h4' _
  have h0 : be16At (overwrite re.rxbuf b) 0 = be16At b 0 := be16At_append (by omega) _
  have hr : r = if lenField b = 0 then .ok ⟨0#16, seqField b, []⟩
      else if lenField b > 80 ∧ lenField b > b.length - 4 then .error .malformedFrame
      else .ok ⟨be16At b 0, seqField b, ((overwrite re.rxbuf b).drop 4).take (lenField b)⟩ := by
    rw [← hl, ← hq, ← h0]
    exact if_neg h4
  have hc : frameClass e b = if lenField b = 0 then .eot
      else if lenField b > 80 ∧ lenField b > b.length - 4 then .overlong
      else if seqBit (seqField b) = e then .dataMatch else .dataDup := if_neg h4
  have hb : b.length ≤ 84 := rxKept_length_le d
  by_cases hz : lenField b = 0
  · rw [if_pos hz] at hr hc
    exact .inr (.inl ⟨hc, hr⟩)
  rw [if_neg hz] at hr hc
  by_cases ho : lenField b > 80 ∧ lenField b > b.length - 4
  · rw [if_pos ho] at hr hc
    exact .inl ⟨.inr hc, hr⟩
  · rw [if_neg ho] at hr hc
    exact .inr (.inr ⟨hc, h4', by omega, by omega, hr⟩)

/-- What taking a datagram at RXD does (R201, R202). -/
theorem reTake_cases (d : Datagram) (q : List Datagram) (s : State) :
    ((frameClass s.re.expected (rxKept d) = .short ∨ frameClass s.re.expected (rxKept d) = .overlong) ∧
      reTake d q s = raiseFault .re .malformedFrame { s with chd := q, re := rxLoad d s.re }) ∨
    (frameClass s.re.expected (rxKept d) = .eot ∧
      reTake d q s = { s with chd := q, re := { rxLoad d s.re with state := .done } }) ∨
    (4 ≤ (rxKept d).length ∧ 1 ≤ lenField (rxKept d) ∧ lenField (rxKept d) ≤ 80 ∧
      ((frameClass s.re.expected (rxKept d) = .dataMatch ∧ seqBit (seqField (rxKept d)) = s.re.expected ∧
        reTake d q s = { s with chd := q, re := { rxLoad d s.re with
          rlen := be16At (rxKept d) 0, rseq := seqField (rxKept d), state := .deliver } }) ∨
       (frameClass s.re.expected (rxKept d) = .dataDup ∧ seqBit (seqField (rxKept d)) ≠ s.re.expected ∧
        reTake d q s = { s with chd := q, re := { rxLoad d s.re with
          rlen := be16At (rxKept d) 0, rseq := seqField (rxKept d), duplicates := s.re.duplicates + 1#32
          state := .ack } }))) := by
  unfold reTake
  obtain ⟨hc, hr⟩ | ⟨hc, hr⟩ | ⟨hc, h4, h1, h80, hr⟩ := frameClass_cases s.re.expected d s.re
  · exact .inl ⟨hc, by rw [hr]⟩
  · exact .inr (.inl ⟨hc, by rw [hr]; rfl⟩)
  · refine .inr (.inr ⟨h4, h1, h80, ?_⟩)
    have hnz : be16At (rxKept d) 0 ≠ 0#16 := by
      intro h
      rw [lenField, h] at h1
      exact absurd h1 (by decide)
    by_cases hs : seqBit (seqField (rxKept d)) = s.re.expected
    · rw [if_pos hs] at hc
      exact .inl ⟨hc, hs, by simp only [hr, if_neg hnz, if_pos hs]⟩
    · rw [if_neg hs] at hc
      exact .inr ⟨hc, hs, by simp only [hr, if_neg hnz, if_neg hs]⟩

/-- What an attempt with the sample `u` does (R165). -/
theorem sendWith_cases (u l : Half) (r : Resp) (s : State) :
    (u.toNat < s.se.lossP.toNat ∧ sendWith u l r s = { s with se := armWait { s.se with
      lfsr := l, txAttempts := s.se.txAttempts + 1#32, dropped := s.se.dropped + 1#32 } }) ∨
    (s.se.lossP.toNat ≤ u.toNat ∧ r = .err ∧ sendWith u l r s =
      raiseFault .se .txError { s with se := { s.se with lfsr := l, txAttempts := s.se.txAttempts + 1#32 } }) ∨
    (s.se.lossP.toNat ≤ u.toNat ∧ r = .ok ∧ sendWith u l r s = { s with
      chd := s.chd ++ [txFrame s.se]
      se := armWait { s.se with lfsr := l, txAttempts := s.se.txAttempts + 1#32, txOk := s.se.txOk + 1#32 } }) := by
  unfold sendWith
  by_cases h : u.toNat < s.se.lossP.toNat
  · exact .inl ⟨h, if_pos (decide_eq_true h)⟩
  · have h' : ¬ (shouldDrop s.se.lossP u = true) := by simpa [shouldDrop] using h
    cases r
    · exact .inr (.inr ⟨by omega, rfl, if_neg h'⟩)
    · exact .inr (.inl ⟨by omega, rfl, if_neg h'⟩)

/-- What an acknowledgment with the sample `u` does (R204). -/
theorem ackWith_cases (u l : Half) (r : Resp) (s : State) :
    (u.toNat < s.re.lossP.toNat ∧ ackWith u l r s =
      { s with re := { s.re with lfsr := l, ackDropped := s.re.ackDropped + 1#32, state := .wait } }) ∨
    (s.re.lossP.toNat ≤ u.toNat ∧ r = .err ∧ ackWith u l r s =
      raiseFault .re .txError { s with re := { s.re with lfsr := l } }) ∨
    (s.re.lossP.toNat ≤ u.toNat ∧ r = .ok ∧ ackWith u l r s = { s with
      cha := s.cha ++ [encodeAck s.re.rseq]
      re := { s.re with lfsr := l, ackTx := s.re.ackTx + 1#32, state := .wait } }) := by
  unfold ackWith
  by_cases h : u.toNat < s.re.lossP.toNat
  · exact .inl ⟨h, if_pos (decide_eq_true h)⟩
  · have h' : ¬ (shouldDrop s.re.lossP u = true) := by simpa [shouldDrop] using h
    cases r
    · exact .inr (.inr ⟨by omega, rfl, if_neg h'⟩)
    · exact .inr (.inl ⟨by omega, rfl, if_neg h'⟩)

end Sys2Proof.Machine
end

