-- ==== Sys2Proof/Laws/Moves.lean ====
section
/-! SUPPORT. Everything a step can do, said once: the moves of SE, of RE and of the HOST, and that exec and step make
only these. Later proofs take a move apart and unfold no meaning. -/

namespace Sys2Proof.Machine

/-- `d` was taken from the channel `Q`, of which `q` is left. -/
def Taken (d : Datagram) (q Q : List Datagram) : Prop := d ∈ Q ∧ (∀ a ∈ q, a ∈ Q) ∧ q.length ≤ Q.length

/-- What a step of SE, or a tick, can do (42_sender.md R163 to R171). -/
inductive SeMove (s : State) : State → Prop
  | readEnd (h : s.se.state = .read) : SeMove s { s with se := { s.se with state := .eot } }
  | oversize (h : s.se.state = .read) : SeMove s (raiseFault .se .payloadTooLarge s)
  | chunk (h : s.se.state = .read) (b : List Byte) (h1 : 1 ≤ b.length) (h80 : b.length ≤ 80) :
      SeMove s { s with se := { loadFrame (frameBytes s.se.seq b) s.se with
        generated := s.se.generated + 1#32, state := .send } }
  | dropped (h : s.se.state = .send) (u l : Half) (smp : Option Half)
      (hs : SampleIs s.se.sampleExt s.se.lfsr smp u l) :
      SeMove s { s with se := armWait { s.se with
        lfsr := l, txAttempts := s.se.txAttempts + 1#32, dropped := s.se.dropped + 1#32 } }
  | sendErr (h : s.se.state = .send) (u l : Half) (smp : Option Half)
      (hs : SampleIs s.se.sampleExt s.se.lfsr smp u l) :
      SeMove s (raiseFault .se .txError { s with se := { s.se with lfsr := l, txAttempts := s.se.txAttempts + 1#32 } })
  | sent (h : s.se.state = .send) (u l : Half) (smp : Option Half)
      (hs : SampleIs s.se.sampleExt s.se.lfsr smp u l) :
      SeMove s { s with
        chd := s.chd ++ [txFrame s.se]
        se := armWait { s.se with lfsr := l, txAttempts := s.se.txAttempts + 1#32, txOk := s.se.txOk + 1#32 } }
  | rxErr (h : s.se.state = .wait) : SeMove s (raiseFault .se .rxError s)
  | badAck (h : s.se.state = .wait) (d : Datagram) (q : List Datagram) (hq : Taken d q s.cha) (hd : d.length ≠ 2) :
      SeMove s (raiseFault .se .malformedAck { s with cha := q })
  | ackHit (h : s.se.state = .wait) (d : Datagram) (q : List Datagram) (hq : Taken d q s.cha) :
      SeMove s { s with
        cha := q
        se := { s.se with
          tmr := 0#64, texp := false, acked := s.se.acked + 1#32, seq := s.se.seq ^^^ 1#1, state := .read } }
  | ackMiss (h : s.se.state = .wait) (d : Datagram) (q : List Datagram) (hq : Taken d q s.cha) :
      SeMove s { s with cha := q, se := { s.se with tmr := 0#64, texp := false, state := .send } }
  | expires (h : s.se.state = .wait) (hx : s.se.texp = true) :
      SeMove s { s with se := { s.se with timeouts := s.se.timeouts + 1#32, texp := false, state := .send } }
  | eotErr (h : s.se.state = .eot) : SeMove s (raiseFault .se .txError s)
  | eotSent (h : s.se.state = .eot) :
      SeMove s { s with chd := s.chd ++ [encodeEot s.se.seq], se := { s.se with state := .done } }
  | noticeErr (h : s.se.state = .notFound) :
      SeMove s (raiseFault .se .txError { s with se := loadFrame (noticeFrame s) s.se })
  | noticeSent (h : s.se.state = .notFound) :
      SeMove s { s with
        chd := s.chd ++ [noticeFrame s]
        se := { loadFrame (noticeFrame s) s.se with seq := s.se.seq ^^^ 1#1, state := .eot } }
  | ticks (k : Nat) (h : s.se.state = .wait) : SeMove s { s with se := tickMany s.params.zeroTimeout k s.se }

/-- What a step of RE can do (43_receiver.md R201 to R204). -/
inductive ReMove (s : State) : State → Prop
  | rxErr (h : s.re.state = .wait) : ReMove s (raiseFault .re .rxError s)
  | malformed (h : s.re.state = .wait) (d : Datagram) (q : List Datagram) (hq : Taken d q s.chd)
      (hc : frameClass s.re.expected (rxKept d) = .short ∨ frameClass s.re.expected (rxKept d) = .overlong) :
      ReMove s (raiseFault .re .malformedFrame { s with chd := q, re := rxLoad d s.re })
  | ended (h : s.re.state = .wait) (d : Datagram) (q : List Datagram) (hq : Taken d q s.chd) :
      ReMove s { s with chd := q, re := { rxLoad d s.re with state := .done } }
  | takesNew (h : s.re.state = .wait) (d : Datagram) (q : List Datagram) (hq : Taken d q s.chd)
      (h4 : 4 ≤ (rxKept d).length) (h1 : 1 ≤ lenField (rxKept d)) (h80 : lenField (rxKept d) ≤ 80)
      (hs : seqBit (seqField (rxKept d)) = s.re.expected) :
      ReMove s { s with chd := q, re := { rxLoad d s.re with
        rlen := be16At (rxKept d) 0, rseq := seqField (rxKept d), state := .deliver } }
  | takesDup (h : s.re.state = .wait) (d : Datagram) (q : List Datagram) (hq : Taken d q s.chd)
      (h4 : 4 ≤ (rxKept d).length) (h1 : 1 ≤ lenField (rxKept d)) (h80 : lenField (rxKept d) ≤ 80)
      (hs : seqBit (seqField (rxKept d)) ≠ s.re.expected) :
      ReMove s { s with chd := q, re := { rxLoad d s.re with
        rlen := be16At (rxKept d) 0, rseq := seqField (rxKept d), duplicates := s.re.duplicates + 1#32, state := .ack } }
  | delivers (h : s.re.state = .deliver) (r : Resp) :
      ReMove s { sinkWrite (rxPayload s.freeCtr s.re) r { s with freeCtr := s.freeCtr + rxMissing s.re } with
        delivered := s.delivered ++ rxPayload s.freeCtr s.re
        re := { s.re with
          sinkErr := s.re.sinkErr || decide (r = .err)
          expected := s.re.expected ^^^ 1#1
          accepted := s.re.accepted + 1#32
          bytes := s.re.bytes + s.re.rlen.setWidth 32
          state := .ack } }
  | ackDropped (h : s.re.state = .ack) (u l : Half) (smp : Option Half)
      (hs : SampleIs s.re.sampleExt s.re.lfsr smp u l) :
      ReMove s { s with re := { s.re with lfsr := l, ackDropped := s.re.ackDropped + 1#32, state := .wait } }
  | ackErr (h : s.re.state = .ack) (u l : Half) (smp : Option Half)
      (hs : SampleIs s.re.sampleExt s.re.lfsr smp u l) :
      ReMove s (raiseFault .re .txError { s with re := { s.re with lfsr := l } })
  | acked (h : s.re.state = .ack) (u l : Half) (smp : Option Half)
      (hs : SampleIs s.re.sampleExt s.re.lfsr smp u l) :
      ReMove s { s with
        cha := s.cha ++ [encodeAck s.re.rseq]
        re := { s.re with lfsr := l, ackTx := s.re.ackTx + 1#32, state := .wait } }

/-- What an access of the HOST can do, its response apart (45_host_commands.md R250 to R258). -/
inductive HostMove (s : State) : State → Prop
  | inert : HostMove s s
  | startsSe (h : seRunning s.se.state = false) (st : SeState) (hst : st = .read ∨ st = .notFound) :
      HostMove s { s with se := { s.se with
        generated := 0#32, txAttempts := 0#32, txOk := 0#32, dropped := 0#32, acked := 0#32, timeouts := 0#32
        seq := 0#1, cause := .none, tmr := 0#64, texp := false
        toSec := BitVec.ofNat 32 (timeoutMs s.se.toExp / 1000)
        toSub := BitVec.ofNat 10 (timeoutMs s.se.toExp % 1000), state := st } }
  | startsRe (h : reStartable s.re.state = true) :
      HostMove s { s with delivered := [], re := { s.re with
        accepted := 0#32, duplicates := 0#32, bytes := 0#32, ackTx := 0#32, ackDropped := 0#32
        expected := 0#1, cause := .none, sinkErr := false, state := .wait } }
  | resetsSe : HostMove s (softResetSe s)
  | resetsRe : HostMove s (softResetRe s)
  | configures (r : CfgReg) (v : Word) : HostMove s (writeCfg r v s)

/-- What a move of the environment outside the opcode table can do (log 19). -/
inductive EnvMove (s : State) : State → Prop
  | loses (c : Chan) (i : Nat) : EnvMove s (loseMove c i s)
  | resets : EnvMove s (hardReset s)
  | empties : EnvMove s (emptyChannelsMove s)
  | attaches : EnvMove s (freshSinkMove s)

/-! ### The transitions make these moves -/

theorem taken_of_deliverAt {m : ChannelMode} {q : List Datagram} {i : Nat} {keep : Bool} {d : Datagram}
    {q' : List Datagram} (h : deliverAt m q i keep = some (d, q')) : Taken d q' q := deliverAt_sub h

theorem seTake_move {d : Datagram} {q : List Datagram} {s : State} (h : s.se.state = .wait) (hq : Taken d q s.cha) :
    SeMove s (seTake d q s) := by
  obtain ⟨hd, he⟩ | ⟨-, -, he⟩ | ⟨-, -, he⟩ := seTake_cases d q s <;> rw [he]
  · exact .badAck h d q hq hd
  · exact .ackHit h d q hq
  · exact .ackMiss h d q hq

theorem reTake_move {d : Datagram} {q : List Datagram} {s : State} (h : s.re.state = .wait) (hq : Taken d q s.chd) :
    ReMove s (reTake d q s) := by
  obtain ⟨hc, he⟩ | ⟨-, he⟩ | ⟨h4, h1, h80, ⟨-, hs, he⟩ | ⟨-, hs, he⟩⟩ := reTake_cases d q s <;> rw [he]
  · exact .malformed h d q hq hc
  · exact .ended h d q hq
  · exact .takesNew h d q hq h4 h1 h80 hs
  · exact .takesDup h d q hq h4 h1 h80 hs

theorem seTakeClass_move (k : AckClass) (d : Datagram) (keep : Bool) (s : State) :
    seTakeClass k d keep s = s ∨ SeMove s (seTakeClass k d keep s) := by
  unfold seTakeClass
  split
  · split
    · exact .inr (seTake_move (by simp_all) (taken_of_deliverAt (deliverThis_some ‹_›)))
    · exact .inl rfl
  · exact .inl rfl

theorem reTakeClass_move (k : FrameClass) (d : Datagram) (keep : Bool) (s : State) :
    reTakeClass k d keep s = s ∨ ReMove s (reTakeClass k d keep s) := by
  unfold reTakeClass
  split
  · split
    · exact .inr (reTake_move (by simp_all) (taken_of_deliverAt (deliverThis_some ‹_›)))
    · exact .inl rfl
  · exact .inl rfl

theorem seRecv_move (rx : Recv) (s : State) : seRecv rx s = s ∨ SeMove s (seRecv rx s) := by
  unfold seRecv
  split
  · cases rx with
    | err => exact .inr (.rxErr ‹_›)
    | dgram i keep =>
      dsimp only
      split
      · exact .inr (seTake_move ‹_› (taken_of_deliverAt ‹_›))
      · exact .inl rfl
  · exact .inl rfl

theorem reRecv_move (data : Bool) (rx : Recv) (s : State) : reRecv data rx s = s ∨ ReMove s (reRecv data rx s) := by
  unfold reRecv
  split
  · cases rx with
    | err => exact .inr (.rxErr ‹_›)
    | dgram i keep =>
      dsimp only
      split
      · split
        · exact .inr (reTake_move ‹_› (taken_of_deliverAt ‹_›))
        · exact .inl rfl
      · exact .inl rfl
  · exact .inl rfl

theorem seSourceEnd_move (len : BitVec 7) (s : State) : seSourceEnd len s = s ∨ SeMove s (seSourceEnd len s) := by
  unfold seSourceEnd
  split
  · split
    · exact .inr (.readEnd ‹_›)
    · split
      · exact .inr (.oversize ‹_›)
      · exact .inl rfl
  · exact .inl rfl

theorem seChunk_move (b : List Byte) (s : State) : seChunk b s = s ∨ SeMove s (seChunk b s) := by
  unfold seChunk encodeFrame
  by_cases h : s.se.state = .read ∧ 1 ≤ b.length
  · rw [if_pos h]
    by_cases h80 : b.length > maxPayload
    · rw [if_pos h80]; exact .inl rfl
    · rw [if_neg h80]; exact .inr (.chunk h.1 b h.2 (by simp at h80; omega))
  · rw [if_neg h]; exact .inl rfl

theorem seExpire_move (s : State) : seExpire s = s ∨ SeMove s (seExpire s) := by
  unfold seExpire
  split
  · rename_i h; exact .inr (.expires h.1 h.2)
  · exact .inl rfl

theorem sendAttempt_move (smp : Option Half) (r : Resp) (s : State) :
    sendAttempt smp r s = s ∨ SeMove s (sendAttempt smp r s) := by
  unfold sendAttempt
  split
  · split
    · rename_i h _ u l hu
      have hs : SampleIs s.se.sampleExt s.se.lfsr smp u l := drawSample_some hu
      right
      obtain ⟨-, he⟩ | ⟨-, -, he⟩ | ⟨-, -, he⟩ := sendWith_cases u l r s <;> rw [he]
      · exact .dropped h u l smp hs
      · exact .sendErr h u l smp hs
      · exact .sent h u l smp hs
    · exact .inl rfl
  · exact .inl rfl

theorem sendEot_move (r : Resp) (s : State) : sendEot r s = s ∨ SeMove s (sendEot r s) := by
  unfold sendEot
  split
  · cases r
    · exact .inr (.eotSent ‹_›)
    · exact .inr (.eotErr ‹_›)
  · exact .inl rfl

theorem sendNotice_move (r : Resp) (s : State) : sendNotice r s = s ∨ SeMove s (sendNotice r s) := by
  unfold sendNotice
  split
  · cases r
    · exact .inr (.noticeSent ‹_›)
    · exact .inr (.noticeErr ‹_›)
  · exact .inl rfl

theorem deliverPayload_move (r : Resp) (s : State) : deliverPayload r s = s ∨ ReMove s (deliverPayload r s) := by
  unfold deliverPayload
  split
  · exact .inr (.delivers ‹_› r)
  · exact .inl rfl

theorem ackAttempt_move (smp : Option Half) (r : Resp) (s : State) :
    ackAttempt smp r s = s ∨ ReMove s (ackAttempt smp r s) := by
  unfold ackAttempt
  split
  · split
    · rename_i h _ u l hu
      have hs : SampleIs s.re.sampleExt s.re.lfsr smp u l := drawSample_some hu
      right
      obtain ⟨-, he⟩ | ⟨-, -, he⟩ | ⟨-, -, he⟩ := ackWith_cases u l r s <;> rw [he]
      · exact .ackDropped h u l smp hs
      · exact .ackErr h u l smp hs
      · exact .acked h u l smp hs
    · exact .inl rfl
  · exact .inl rfl

theorem ticks_move (k : Nat) (s : State) :
    { s with se := tickMany s.params.zeroTimeout k s.se } = s ∨
      SeMove s { s with se := tickMany s.params.zeroTimeout k s.se } := by
  by_cases h : s.se.state = .wait
  · exact .inr (.ticks k h)
  · exact .inl (by rw [tickMany_idle h])

theorem ite_move {P : State → Prop} {c : Bool} {s t : State} (h : t = s ∨ P t) :
    (if c then t else s) = s ∨ P (if c then t else s) := by
  cases c
  · exact .inl rfl
  · exact h

/-! ### exec and step make only these -/

/-- A step of SE, and a tick. -/
theorem exec_se_moves {i : Instr} {s t : State} (ha : actor i = .se ∨ actor i = .timebase) (h : exec i s = .next t) :
    t = s ∨ SeMove s t := by
  cases i <;> simp only [actor, reduceCtorEq, or_self, or_false, or_true] at ha <;> cases h
  case ackMalformed d k => exact seTakeClass_move _ d k s
  case ackMatch d k => exact seTakeClass_move _ d k s
  case ackMismatch d k => exact seTakeClass_move _ d k s
  case txData sq p smp r => exact ite_move (sendAttempt_move smp r s)
  case txEot sq r =>
    by_cases hc : s.se.seq = sq
    · rw [if_pos hc]; exact sendEot_move r s
    · rw [if_neg hc]; exact .inl rfl
  case txNotfound len r =>
    by_cases hc : s.params.notFoundMsg.bytes.length = len.toNat ∧ s.se.seq = 0#1
    · rw [if_pos hc]; exact sendNotice_move r s
    · rw [if_neg hc]; exact .inl rfl
  case seReadEnd len b => exact seSourceEnd_move len s
  case seReadChunk b => exact seChunk_move b s
  case seSend smp r => exact sendAttempt_move smp r s
  case seWaitRx rx => exact seRecv_move rx s
  case seWaitTimeout => exact seExpire_move s
  case seEot r => exact sendEot_move r s
  case seNotfound r => exact sendNotice_move r s
  case tick k => exact ticks_move k s

/-- A step of RE. -/
theorem exec_re_moves {i : Instr} {s t : State} (ha : actor i = .re) (h : exec i s = .next t) : t = s ∨ ReMove s t := by
  cases i <;> simp only [actor, reduceCtorEq] at ha <;> cases h
  case frameShort d k => exact reTakeClass_move _ d k s
  case frameEot d k => exact reTakeClass_move _ d k s
  case frameOverlong d k => exact reTakeClass_move _ d k s
  case frameDataMatch d k => exact reTakeClass_move _ d k s
  case frameDataDup d k => exact reTakeClass_move _ d k s
  case txAck a smp r => exact ite_move (ackAttempt_move smp r s)
  case reWait rx => exact reRecv_move false rx s
  case reWaitData i k => exact reRecv_move true _ s
  case reDeliver r => exact deliverPayload_move r s
  case reAck smp r => exact ackAttempt_move smp r s

theorem startSe_move (s : State) : HostMove s (startSe s) := by
  unfold startSe
  split
  · exact .inert
  · rename_i h
    refine .startsSe (by simpa using h) _ ?_
    split
    · exact .inr rfl
    · exact .inl rfl

theorem startRe_move (s : State) : HostMove s (startRe s) := by
  unfold startRe
  split
  · exact .startsRe ‹_›
  · exact .inert

/-- An access of the HOST. -/
theorem exec_host_moves {i : Instr} {s t : State} (ha : actor i = .host) (h : exec i s = .next t) :
    ∃ b u, t = respond b u ∧ HostMove s u := by
  cases i <;> simp only [actor, reduceCtorEq] at ha <;> cases h
  case sStart hi => exact ⟨_, _, rfl, startSe_move s⟩
  case sSoftReset hi b0 => exact ⟨_, _, rfl, .resetsSe⟩
  case rStart hi => exact ⟨_, _, rfl, startRe_move s⟩
  case rSoftReset hi b0 => exact ⟨_, _, rfl, .resetsRe⟩
  case ctrlNop e hi => exact ⟨_, _, rfl, .inert⟩
  case cfgWrite r v => exact ⟨_, _, rfl, .configures r v⟩
  case roWrite off w v => exact ⟨_, _, rfl, .inert⟩
  case csrRead off w => exact ⟨_, _, rfl, .inert⟩

/-- Everything an instruction can do. -/
theorem exec_moves {i : Instr} {s t : State} (h : exec i s = .next t) :
    t = s ∨ SeMove s t ∨ ReMove s t ∨ ∃ b u, t = respond b u ∧ HostMove s u := by
  cases ha : actor i
  · exact (exec_se_moves (.inl ha) h).imp_right .inl
  · exact (exec_re_moves ha h).imp_right (.inr ∘ .inl)
  · exact .inr (.inr (.inr (exec_host_moves ha h)))
  · exact (exec_se_moves (.inr ha) h).imp_right .inl

/-- Everything a step can do. -/
theorem step_moves {s t : State} (h : step s = .next t) :
    t = popEvent s ∨ SeMove (popEvent s) t ∨ ReMove (popEvent s) t ∨ (∃ b u, t = respond b u ∧ HostMove (popEvent s) u) ∨
      EnvMove (popEvent s) t := by
  unfold step fetch at h
  cases hs : s.script with
  | nil =>
    rw [hs] at h; cases h
    left
    unfold popEvent
    rw [hs]
    cases s
    simp_all
  | cons e rest =>
    rw [hs] at h
    cases e with
    | word p bs =>
      cases hd : decode (ctxOf s) p bs with
      | ok i =>
        simp only [hd] at h
        obtain h | h | h | h := exec_moves h
        · exact .inl h
        · exact .inr (.inl h)
        · exact .inr (.inr (.inl h))
        · exact .inr (.inr (.inr (.inl h)))
      | error e => simp only [hd] at h; cases h
    | lose c i => cases h; exact .inr (.inr (.inr (.inr (.loses c i))))
    | hardReset => cases h; exact .inr (.inr (.inr (.inr .resets)))
    | emptyChannels => cases h; exact .inr (.inr (.inr (.inr .empties)))
    | freshSink => cases h; exact .inr (.inr (.inr (.inr .attaches)))

end Sys2Proof.Machine
end

