-- ==== Sys2Proof/Laws/PerInstr.lean ====
section
/-! SUPPORT. A statement per instruction: its encoding stands in the format that opcode_table.json gives its row. -/

namespace Sys2Proof.Laws.EncodedPort

/-- The formats of opcode_table.json. -/
inductive RowFormat where
  | rxFrame | rxAck | dataFrame | eotFrame | noticeFrame | ack | csrWrite | csrRead | seStep | reStep | tick
  deriving DecidableEq, Repr

/-- The format of a port. -/
def portFormat : Port → RowFormat
  | .rxd _ => .rxFrame
  | .rxa _ => .rxAck
  | .txd _ _ => .dataFrame
  | .txdEot _ => .eotFrame
  | .txdNotice _ => .noticeFrame
  | .txa _ _ => .ack
  | .csrWrite _ _ => .csrWrite
  | .csrRead _ _ => .csrRead
  | .seStep _ => .seStep
  | .reStep _ => .reStep
  | .tick _ => .tick

/-- The format column of the opcode table. -/
def rowFormat : Instr → RowFormat
  | .frameShort _ _ => .rxFrame
  | .frameEot _ _ => .rxFrame
  | .frameOverlong _ _ => .rxFrame
  | .frameDataMatch _ _ => .rxFrame
  | .frameDataDup _ _ => .rxFrame
  | .ackMalformed _ _ => .rxAck
  | .ackMatch _ _ => .rxAck
  | .ackMismatch _ _ => .rxAck
  | .txData _ _ _ _ => .dataFrame
  | .txEot _ _ => .eotFrame
  | .txNotfound _ _ => .noticeFrame
  | .txAck _ _ _ => .ack
  | .sStart _ => .csrWrite
  | .sSoftReset _ _ => .csrWrite
  | .rStart _ => .csrWrite
  | .rSoftReset _ _ => .csrWrite
  | .ctrlNop _ _ => .csrWrite
  | .cfgWrite _ _ => .csrWrite
  | .roWrite _ _ _ => .csrWrite
  | .csrRead _ _ => .csrRead
  | .seReadEnd _ _ => .seStep
  | .seReadChunk _ => .seStep
  | .seSend _ _ => .seStep
  | .seWaitRx _ => .seStep
  | .seWaitTimeout => .seStep
  | .seEot _ => .seStep
  | .seNotfound _ => .seStep
  | .tick _ => .tick
  | .reWait _ => .reStep
  | .reWaitData _ _ => .reStep
  | .reDeliver _ => .reStep
  | .reAck _ _ => .reStep

/-- Whatever the context, the encoding of `i` stands at a port of its row's format. -/
def Statement (i : Instr) : Prop := ∀ c : DecodeCtx, portFormat (encode c i).1 = rowFormat i

theorem frameShort (d : Datagram) (keep : Bool) : Statement (.frameShort d keep) := fun _ => rfl
theorem frameEot (d : Datagram) (keep : Bool) : Statement (.frameEot d keep) := fun _ => rfl
theorem frameOverlong (d : Datagram) (keep : Bool) : Statement (.frameOverlong d keep) := fun _ => rfl
theorem frameDataMatch (d : Datagram) (keep : Bool) : Statement (.frameDataMatch d keep) := fun _ => rfl
theorem frameDataDup (d : Datagram) (keep : Bool) : Statement (.frameDataDup d keep) := fun _ => rfl
theorem ackMalformed (d : Datagram) (keep : Bool) : Statement (.ackMalformed d keep) := fun _ => rfl
theorem ackMatch (d : Datagram) (keep : Bool) : Statement (.ackMatch d keep) := fun _ => rfl
theorem ackMismatch (d : Datagram) (keep : Bool) : Statement (.ackMismatch d keep) := fun _ => rfl
theorem txData (seq : Bit) (payload : List Byte) (smp : Option Half) (r : Resp) : Statement (.txData seq payload smp r) := fun _ => rfl
theorem txEot (seq : Bit) (r : Resp) : Statement (.txEot seq r) := fun _ => rfl
theorem txNotfound (len : Half) (r : Resp) : Statement (.txNotfound len r) := fun _ => rfl
theorem txAck (a : Half) (smp : Option Half) (r : Resp) : Statement (.txAck a smp r) := fun _ => rfl
theorem sStart (hi : BitVec 30) : Statement (.sStart hi) := fun _ => rfl
theorem sSoftReset (hi : BitVec 30) (b0 : Bit) : Statement (.sSoftReset hi b0) := fun _ => rfl
theorem rStart (hi : BitVec 30) : Statement (.rStart hi) := fun _ => rfl
theorem rSoftReset (hi : BitVec 30) (b0 : Bit) : Statement (.rSoftReset hi b0) := fun _ => rfl
theorem ctrlNop (e : Engine) (hi : BitVec 30) : Statement (.ctrlNop e hi) := fun _ => rfl
theorem cfgWrite (reg : CfgReg) (v : Word) : Statement (.cfgWrite reg v) := fun _ => rfl
theorem roWrite (off : Word) (w : Width) (v : Word) : Statement (.roWrite off w v) := fun _ => rfl
theorem csrRead (off : Word) (w : Width) : Statement (.csrRead off w) := fun _ => rfl
theorem seReadEnd (len : BitVec 7) (b : List Byte) : Statement (.seReadEnd len b) := fun _ => rfl
theorem seReadChunk (b : List Byte) : Statement (.seReadChunk b) := fun _ => rfl
theorem seSend (smp : Option Half) (r : Resp) : Statement (.seSend smp r) := fun _ => rfl
theorem seWaitRx (rx : Recv) : Statement (.seWaitRx rx) := fun _ => rfl
theorem seWaitTimeout : Statement (.seWaitTimeout) := fun _ => rfl
theorem seEot (r : Resp) : Statement (.seEot r) := fun _ => rfl
theorem seNotfound (r : Resp) : Statement (.seNotfound r) := fun _ => rfl
theorem tick (k : Nat) : Statement (.tick k) := fun _ => rfl
theorem reWait (rx : Recv) : Statement (.reWait rx) := fun _ => rfl
theorem reWaitData (i : Nat) (keep : Bool) : Statement (.reWaitData i keep) := fun _ => rfl
theorem reDeliver (r : Resp) : Statement (.reDeliver r) := fun _ => rfl
theorem reAck (smp : Option Half) (r : Resp) : Statement (.reAck smp r) := fun _ => rfl

end Sys2Proof.Laws.EncodedPort
end

