-- ==== Sys2Proof/Tests/Slice0.lean ====
section
/-! SUPPORT. The model's own tests: an ill-formed term for each check of WellFormed, words written out from the spec's
encodings, one-step tests whose expected values are the vectors of 95_test_vectors.md, and a witness for the hypotheses of
every obligation that has some. -/

namespace Sys2Proof.Tests

open Sys2Proof.Machine

/-! ### Helpers -/

/-- The next state of an outcome. -/
def after : Host.Outcome State Fault Refusal → Option State
  | .next s => some s
  | .fault _ => none
  | .refused _ => none

/-- What `f` sees of the state after `i` in `s`. -/
def see {α : Type} (f : State → α) (i : Instr) (s : State) : Option α := (after (exec i s)).map f

/-- The reset state with SE changed by `f`. -/
def withSe (f : Sender → Sender) : State := { State.reset with se := f State.reset.se }

/-- The reset state with RE changed by `f`. -/
def withRe (f : Receiver → Receiver) : State := { State.reset with re := f State.reset.re }

/-- The reset state with SE in the state `st`. -/
def seIn (st : SeState) : State := withSe (fun se => { se with state := st })

/-- The reset state with RE in the state `st`. -/
def reIn (st : ReState) : State := withRe (fun re => { re with state := st })

/-- The six SE counters, in the order of 95_test_vectors.md section 2.4. -/
def seCtr (s : State) : List Word :=
  [s.se.generated, s.se.txAttempts, s.se.txOk, s.se.dropped, s.se.acked, s.se.timeouts]

/-- The five RE counters, in the order of section 2.5. -/
def reCtr (s : State) : List Word := [s.re.accepted, s.re.duplicates, s.re.bytes, s.re.ackTx, s.re.ackDropped]

/-- The payload of V-C1. -/
def hello : List Byte := [0x68#8, 0x65#8, 0x6C#8, 0x6C#8, 0x6F#8, 0x0A#8]

/-- The frame of V-C1. -/
def helloFrame : List Byte := [0x00#8, 0x06#8, 0x00#8, 0x00#8, 0x68#8, 0x65#8, 0x6C#8, 0x6C#8, 0x6F#8, 0x0A#8]

/-- SE in `st` with V-C1's frame in flight. -/
def holding (st : SeState) : State :=
  withSe (fun se => { loadFrame helloFrame se with state := st, generated := 1#32 })

/-- SE waits for the ACK of V-C1's frame, a copy of which is in CHD, with the ACK in CHA and the wait expired; RE waits for a
frame. The next event offers the datagram of CHA to SE. -/
def inFlight : State :=
  { holding .wait with
    se := { (holding .wait).se with txAttempts := 1#32, txOk := 1#32, texp := true }
    re := (reIn .wait).re
    chd := [helloFrame]
    cha := [[0x00#8, 0x00#8]]
    script := [.word (.seStep (.recv (.dgram 0 false))) [0x03#8]] }

/-- RE holds V-C1's payload and waits for SNK. -/
def delivering : State :=
  withRe (fun re => { rxLoad helloFrame re with state := .deliver, rlen := 6#16, rseq := 0x0000#16 })

/-- RE acknowledges the frame whose sequence field is `q`. -/
def acking (q : Half) : State := withRe (fun re => { re with state := .ack, rlen := 1#16, rseq := q })

/-- A context for decoding: window base 0x40000000. -/
def ctx (e s : Bit) : DecodeCtx := ⟨0x40000000#32, e, s⟩

/-- The instruction that a word at a port decodes to. -/
def dec (e s : Bit) (p : Port) (bs : List Byte) : Option Instr := (decode (ctx e s) p bs).toOption

/-! ### WellFormed refuses an ill-formed term at each check -/

theorem test_wf_frames :
    wellFormed (.frameShort [0#8, 1#8, 0#8, 0#8] false) = false ∧ wellFormed (.frameEot [0#8, 0#8, 0#8] false) = false ∧
    wellFormed (.frameEot [0#8, 1#8, 0#8, 0#8] false) = false ∧ wellFormed (.frameOverlong [0#8, 80#8, 0#8, 0#8] false) = false ∧
    wellFormed (.frameOverlong [1#8, 0#8, 0#8] false) = false ∧ wellFormed (.frameDataMatch [0#8, 0#8, 0#8, 0#8] false) = false ∧
    wellFormed (.frameDataMatch [0#8, 81#8, 0#8, 0#8] false) = false ∧ wellFormed (.frameDataDup [0#8, 1#8, 0#8] false) = false := by
  decide

theorem test_wf_acks :
    wellFormed (.ackMalformed [0#8, 0#8] false) = false ∧ wellFormed (.ackMatch [0#8, 2#8] false) = false ∧
    wellFormed (.ackMatch [0#8] false) = false ∧ wellFormed (.ackMismatch [0#8, 1#8, 0#8] false) = false := by
  decide

theorem test_wf_emitted :
    wellFormed (.txData 0#1 [] none .ok) = false ∧ wellFormed (.txData 0#1 (List.replicate 81 0#8) none .ok) = false ∧
    wellFormed (.txNotfound 0#16 .ok) = false ∧ wellFormed (.txNotfound 81#16 .ok) = false := by
  decide

theorem test_wf_steps :
    wellFormed (.roWrite 0x004#32 .b4 0#32) = false ∧ wellFormed (.roWrite 0x080#32 .b4 0#32) = false ∧
    wellFormed (.seReadEnd 80#7 (List.replicate 80 0#8)) = false ∧ wellFormed (.seReadEnd 81#7 (List.replicate 81 0#8)) = false ∧
    wellFormed (.seReadChunk []) = false ∧ wellFormed (.seReadChunk (List.replicate 81 0#8)) = false := by
  decide

theorem test_fits_compares :
    fits (ctx 1#1 0#1) (.frameDataMatch helloFrame false) = false ∧ fits (ctx 0#1 0#1) (.frameDataDup helloFrame false) = false ∧
    fits (ctx 0#1 1#1) (.ackMatch [0#8, 0#8] false) = false ∧ fits (ctx 0#1 0#1) (.ackMismatch [0#8, 0#8] false) = false := by
  decide

/-! ### Words written out from the spec's encodings -/

/-- V-C10, V-C11, V-C7 to V-C9, V-C12, V-C14. -/
theorem test_decode_frames_without_data :
    dec 0#1 0#1 (.rxd false) [] = some (.frameShort [] false) ∧
    dec 0#1 0#1 (.rxd false) [0x00#8, 0x01#8, 0x00#8] = some (.frameShort [0x00#8, 0x01#8, 0x00#8] false) ∧
    dec 1#1 0#1 (.rxd false) [0x00#8, 0x00#8, 0xFF#8, 0xFF#8] = some (.frameEot [0x00#8, 0x00#8, 0xFF#8, 0xFF#8] false) ∧
    dec 0#1 0#1 (.rxd true) [0x00#8, 0x00#8, 0x00#8, 0x01#8, 0xDE#8, 0xAD#8] =
      some (.frameEot [0x00#8, 0x00#8, 0x00#8, 0x01#8, 0xDE#8, 0xAD#8] true) ∧
    dec 0#1 0#1 (.rxd false) [0x00#8, 0x51#8, 0x00#8, 0x00#8] = some (.frameOverlong [0x00#8, 0x51#8, 0x00#8, 0x00#8] false) := by
  decide

/-- V-C15: 100 bytes on the wire, of which 84 are kept, so a length field of 96 is too long. -/
theorem test_decode_truncates_first :
    dec 0#1 0#1 (.rxd false) ([0x00#8, 0x60#8, 0x00#8, 0x00#8] ++ List.replicate 96 0#8) =
      some (.frameOverlong ([0x00#8, 0x60#8, 0x00#8, 0x00#8] ++ List.replicate 96 0#8) false) := by
  decide

/-- V-C18, V-C19, V-C21 to V-C23. -/
theorem test_decode_data_frames :
    dec 0#1 0#1 (.rxd false) helloFrame = some (.frameDataMatch helloFrame false) ∧
    dec 0#1 0#1 (.rxd false) [0x00#8, 0x01#8, 0x00#8, 0x00#8] = some (.frameDataMatch [0x00#8, 0x01#8, 0x00#8, 0x00#8] false) ∧
    dec 0#1 0#1 (.rxd false) [0x00#8, 0x01#8, 0x00#8, 0x02#8, 0x5A#8] =
      some (.frameDataMatch [0x00#8, 0x01#8, 0x00#8, 0x02#8, 0x5A#8] false) ∧
    dec 0#1 0#1 (.rxd false) [0x00#8, 0x01#8, 0x80#8, 0x01#8, 0x5A#8] =
      some (.frameDataDup [0x00#8, 0x01#8, 0x80#8, 0x01#8, 0x5A#8] false) ∧
    dec 1#1 0#1 (.rxd false) helloFrame = some (.frameDataDup helloFrame false) := by
  decide

/-- V-C24 to V-C30. -/
theorem test_decode_acks :
    dec 0#1 0#1 (.rxa false) [0x00#8, 0x00#8] = some (.ackMatch [0x00#8, 0x00#8] false) ∧
    dec 0#1 0#1 (.rxa false) [0x00#8, 0x01#8] = some (.ackMismatch [0x00#8, 0x01#8] false) ∧
    dec 0#1 1#1 (.rxa false) [0x00#8, 0x01#8] = some (.ackMatch [0x00#8, 0x01#8] false) ∧
    dec 0#1 1#1 (.rxa false) [0x00#8, 0x03#8] = some (.ackMismatch [0x00#8, 0x03#8] false) ∧
    dec 0#1 0#1 (.rxa false) [0x01#8, 0x00#8] = some (.ackMismatch [0x01#8, 0x00#8] false) ∧
    dec 0#1 0#1 (.rxa false) [0x00#8, 0x00#8, 0x00#8] = some (.ackMalformed [0x00#8, 0x00#8, 0x00#8] false) := by
  decide

/-- V-C2, V-C5, V-C6 and the ACK after V-C23: the emitted messages. -/
theorem test_decode_emitted :
    dec 0#1 0#1 (.txd none .ok) [0x00#8, 0x01#8, 0x00#8, 0x01#8, 0xFF#8] = some (.txData 1#1 [0xFF#8] none .ok) ∧
    dec 0#1 0#1 (.txd none .ok) [0x00#8, 0x01#8, 0x00#8, 0x03#8, 0xFF#8] = none ∧
    dec 0#1 0#1 (.txd none .ok) [0x00#8, 0x02#8, 0x00#8, 0x01#8, 0xFF#8] = none ∧
    dec 0#1 0#1 (.txdEot .err) [0x00#8, 0x00#8, 0x00#8, 0x01#8] = some (.txEot 1#1 .err) ∧
    dec 0#1 0#1 (.txdNotice .ok) [0x00#8, 0x0E#8, 0x00#8, 0x00#8] = some (.txNotfound 14#16 .ok) ∧
    dec 0#1 0#1 (.txa none .ok) [0x80#8, 0x01#8] = some (.txAck 0x8001#16 none .ok) := by
  decide

/-- R101, with bits the command ignores: V-H5, V-H7 to V-H9, V-H16. -/
theorem test_decode_commands :
    dec 0#1 0#1 (.csrWrite 0x40000000#32 .b4) [0x00#8, 0x00#8, 0x00#8, 0x01#8] = some (.sStart 0#30) ∧
    dec 0#1 0#1 (.csrWrite 0x40000000#32 .b4) [0x00#8, 0x00#8, 0x00#8, 0x02#8] = some (.sSoftReset 0#30 0#1) ∧
    dec 0#1 0#1 (.csrWrite 0x40000000#32 .b4) [0x00#8, 0x00#8, 0x00#8, 0x03#8] = some (.sSoftReset 0#30 1#1) ∧
    dec 0#1 0#1 (.csrWrite 0x40000000#32 .b4) [0xFF#8, 0xFF#8, 0xFF#8, 0xFC#8] = some (.ctrlNop .se 0x3FFFFFFF#30) ∧
    dec 0#1 0#1 (.csrWrite 0x40000080#32 .b4) [0x00#8, 0x00#8, 0x00#8, 0x05#8] = some (.rStart 1#30) ∧
    dec 0#1 0#1 (.csrWrite 0x40000080#32 .b4) [0x80#8, 0x00#8, 0x00#8, 0x02#8] = some (.rSoftReset 0x20000000#30 0#1) := by
  decide

/-- R28 and R62: V-G5, V-H3, V-H4, V-H2. -/
theorem test_decode_accesses :
    dec 0#1 0#1 (.csrWrite 0x4000000C#32 .b4) [0x12#8, 0x34#8, 0xBE#8, 0xEF#8] = some (.cfgWrite .sSeed 0x1234BEEF#32) ∧
    dec 0#1 0#1 (.csrWrite 0x40000094#32 .b4) [0x00#8, 0x00#8, 0x00#8, 0x03#8] = some (.cfgWrite .rIrq 3#32) ∧
    dec 0#1 0#1 (.csrWrite 0x40000030#32 .b4) [0x12#8, 0x34#8, 0x56#8, 0x78#8] = some (.roWrite 0x030#32 .b4 0x12345678#32) ∧
    dec 0#1 0#1 (.csrWrite 0x40000000#32 .b2) [0x00#8, 0x00#8, 0x00#8, 0x01#8] = some (.roWrite 0x000#32 .b2 1#32) ∧
    dec 0#1 0#1 (.csrRead 0x400000FC#32 .b4) [] = some (.csrRead 0x0FC#32 .b4) := by
  decide

/-- R22 and R163 to R169: the state value names the rule. -/
theorem test_decode_se_steps :
    dec 0#1 0#1 (.seStep (.src 0#7 [])) [0x01#8] = some (.seReadEnd 0#7 []) ∧
    dec 0#1 0#1 (.seStep (.src 127#7 (List.replicate 80 0#8))) [0x01#8] = some (.seReadEnd 127#7 (List.replicate 80 0#8)) ∧
    dec 0#1 0#1 (.seStep (.src 6#7 hello)) [0x01#8] = some (.seReadChunk hello) ∧
    dec 0#1 0#1 (.seStep (.attempt (some 5#16) .err)) [0x02#8] = some (.seSend (some 5#16) .err) ∧
    dec 0#1 0#1 (.seStep (.recv .err)) [0x03#8] = some (.seWaitRx .err) ∧
    dec 0#1 0#1 (.seStep .expired) [0x03#8] = some .seWaitTimeout ∧
    dec 0#1 0#1 (.seStep (.put .ok)) [0x04#8] = some (.seEot .ok) ∧
    dec 0#1 0#1 (.seStep (.put .ok)) [0x07#8] = some (.seNotfound .ok) ∧
    dec 0#1 0#1 (.seStep (.put .ok)) [0x05#8] = none := by
  decide

/-- R23, R201 to R204 and R170. -/
theorem test_decode_re_steps :
    dec 0#1 0#1 (.reStep (.recv (.dgram 1 false))) [0x01#8] = some (.reWait (.dgram 1 false)) ∧
    dec 0#1 0#1 (.reStep (.recvData 0 true)) [0x01#8] = some (.reWaitData 0 true) ∧
    dec 0#1 0#1 (.reStep (.sink .err)) [0x02#8] = some (.reDeliver .err) ∧
    dec 0#1 0#1 (.reStep (.ack none .ok)) [0x03#8] = some (.reAck none .ok) ∧
    dec 0#1 0#1 (.reStep (.sink .ok)) [0x04#8] = none ∧
    dec 0#1 0#1 (.tick 10) [] = some (.tick 10) ∧ dec 0#1 0#1 (.tick 0) [] = some (.tick 0) := by
  decide

/-- Rows of the opcode table by their bits: SE_SEND, ACK_MATCH, TX_NOTFOUND, TX_EOT, S_START, S_SOFT_RESET. -/
theorem test_table_words :
    decodeTableWord 8 2 = some (.seSend (some 0#16) .ok) ∧ decodeTableWord 16 1 = some (.ackMatch [0x00#8, 0x01#8] false) ∧
    decodeTableWord 32 0x000E0000 = some (.txNotfound 14#16 .ok) ∧ decodeTableWord 32 0 = some (.txEot 0#1 .ok) ∧
    decodeTableWord 32 1 = some (.sStart 0#30) ∧
    decodeTableWord 32 2 = some (.sSoftReset 0#30 0#1) := by
  decide

/-- Placing a word of the table makes the next step run it: the timeout row, from reset. -/
theorem test_withFetchWord_runs :
    (after (step (State.reset.withFetchWord 8 3))).map (fun t => (t.se.state, t.se.timeouts, t.script)) =
      some (.send, 1#32, []) := by
  decide

/-- A word that is no instruction is refused by name, and an empty script changes nothing. -/
theorem test_step_edges :
    after (step { State.reset with script := [.word (.seStep (.put .ok)) [0x05#8]] }) = none ∧ after (step State.reset) = some State.reset := by
  decide

/-! ### The codec and the gate -/

/-- V-C1 to V-C4. -/
theorem test_encode :
    encodeFrame 0#1 hello = .ok helloFrame ∧ encodeFrame 1#1 [0xFF#8] = .ok [0x00#8, 0x01#8, 0x00#8, 0x01#8, 0xFF#8] ∧
    encodeFrame 1#1 (List.replicate 80 0#8) = .ok ([0x00#8, 0x50#8, 0x00#8, 0x01#8] ++ List.replicate 80 0#8) ∧
    encodeFrame 0#1 (List.replicate 81 0#8) = .error .payloadTooLarge := ⟨rfl, rfl, rfl, rfl⟩

/-- The example of R122. -/
theorem test_decode_frame :
    decodeFrame 10 ([0x00#8, 0x06#8, 0x00#8, 0x01#8] ++ hello ++ List.replicate 74 0xEE#8) = .ok ⟨6#16, 1#16, hello⟩ := rfl

/-- The first samples from 0xACE1 (R145) and V-G2. -/
theorem test_lfsr :
    (List.range 10).foldl (fun l _ => (lfsrStep (l.headD 0xACE1#16)) :: l) [] =
      [0x30B1#16, 0x6162#16, 0xC2C4#16, 0xED89#16, 0xB313#16, 0x0E27#16, 0x1C4E#16, 0x389C#16, 0x7138#16, 0xE270#16] ∧
    [0x0001#16, 0xB400#16, 0x8000#16, 0xFFFF#16, 0xBEEF#16, 0x0002#16].map lfsrStep =
      [0xB400#16, 0x5A00#16, 0x4000#16, 0xCBFF#16, 0xEB77#16, 0x0001#16] := by
  decide

/-- V-G7 to V-G11. -/
theorem test_should_drop :
    shouldDrop 0#17 0#16 = false ∧ shouldDrop 1#17 0#16 = true ∧ shouldDrop 1#17 1#16 = false ∧
    shouldDrop 0x8000#17 0x7FFF#16 = true ∧ shouldDrop 0x8000#17 0x8000#16 = false ∧
    shouldDrop 0xFFFF#17 0xFFFF#16 = false ∧ shouldDrop 0x10000#17 0xFFFF#16 = true := by
  decide

/-! ### One step of each instruction -/

/-- V-R2: R_STATUS 0x25. -/
theorem test_frameShort :
    see (fun t => readAt t 0x090) (.frameShort [0x00#8, 0x01#8, 0x00#8] false)
      { reIn .wait with chd := [[0x00#8, 0x01#8, 0x00#8]] } = some 0x25#32 := by decide

/-- V-R1: R_DONE, EXPECTED kept, no ACK: R_STATUS 0x0C. -/
theorem test_frameEot :
    see (fun t => (readAt t 0x090, t.cha, t.chd)) (.frameEot [0#8, 0#8, 0#8, 0#8] false)
      { withRe (fun re => { re with state := .wait, expected := 1#1 }) with chd := [[0#8, 0#8, 0#8, 0#8]] } =
      some (0x0C#32, [], []) := by decide

/-- V-R3: R_STATUS 0x2D. -/
theorem test_frameOverlong :
    see (fun t => readAt t 0x090) (.frameOverlong [0x00#8, 0x51#8, 0x00#8, 0x00#8] false)
      { withRe (fun re => { re with state := .wait, expected := 1#1 }) with chd := [[0x00#8, 0x51#8, 0x00#8, 0x00#8]] } =
      some 0x2D#32 := by decide

/-- V-R5, its first step. -/
theorem test_frameDataMatch :
    see (fun t => (t.re.state, t.re.rlen, t.re.rseq, t.chd)) (.frameDataMatch helloFrame false)
      { reIn .wait with chd := [helloFrame] } = some (.deliver, 6#16, 0#16, []) := by decide

/-- V-R6, its first step, the channel keeping its copy. -/
theorem test_frameDataDup :
    see (fun t => (t.re.state, t.re.duplicates, t.delivered, t.chd)) (.frameDataDup helloFrame true)
      { withRe (fun re => { re with state := .wait, expected := 1#1 }) with chd := [helloFrame] } =
      some (.ack, 1#32, [], [helloFrame]) := by decide

/-- A frame row whose datagram is not in the channel forges nothing (R68). -/
theorem test_frame_not_in_channel :
    after (exec (.frameDataMatch helloFrame false) (reIn .wait)) = some (reIn .wait) := by decide

/-- V-S12: S_STATUS 0x36. -/
theorem test_ackMalformed :
    see (fun t => readAt t 0x010) (.ackMalformed [0#8, 0#8, 0#8] false) { seIn .wait with cha := [[0#8, 0#8, 0#8]] } =
      some 0x36#32 := by decide

/-- V-S9. -/
theorem test_ackMatch :
    see (fun t => (t.se.state, t.se.seq, seCtr t, t.se.tmr)) (.ackMatch [0#8, 0#8] false)
      { withSe (fun se => { se with state := .wait, tmr := 7#64, generated := 1#32, txAttempts := 1#32, txOk := 1#32 }) with
        cha := [[0#8, 0#8]] } =
      some (.read, 1#1, [1#32, 1#32, 1#32, 0#32, 1#32, 0#32], 0#64) := by decide

/-- V-S11: no counter changes. -/
theorem test_ackMismatch :
    see (fun t => (t.se.state, t.se.seq, seCtr t)) (.ackMismatch [0#8, 0#8] false)
      { withSe (fun se => { se with state := .wait, seq := 1#1, generated := 2#32, acked := 1#32 }) with cha := [[0#8, 0#8]] } =
      some (.send, 1#1, [2#32, 0#32, 0#32, 0#32, 1#32, 0#32]) := by decide

/-- V-S5, by the message row. -/
theorem test_txData :
    see (fun t => (t.se.state, seCtr t, t.chd)) (.txData 0#1 hello none .ok) (holding .send) =
      some (.wait, [1#32, 1#32, 1#32, 0#32, 0#32, 0#32], [helloFrame]) := by decide

/-- The message row of another frame is not enabled. -/
theorem test_txData_other : after (exec (.txData 1#1 hello none .ok) (holding .send)) = some (holding .send) := by decide

/-- V-S15, by the message row. -/
theorem test_txEot :
    see (fun t => (readAt t 0x010, t.chd)) (.txEot 1#1 .ok) (withSe (fun se => { se with state := .eot, seq := 1#1 })) =
      some (0x0D#32, [[0#8, 0#8, 0#8, 1#8]]) := by decide

/-- V-S17, by the message row: the 18 bytes of V-C6. -/
theorem test_txNotfound :
    see (fun t => (t.se.state, t.se.seq, t.chd, t.se.lfsr)) (.txNotfound 14#16 .ok) (seIn .notFound) =
      some (.eot, 1#1, [[0x00#8, 0x0E#8, 0x00#8, 0x00#8, 0x46#8, 0x49#8, 0x4C#8, 0x45#8, 0x20#8, 0x4E#8, 0x4F#8, 0x54#8, 0x20#8,
        0x46#8, 0x4F#8, 0x55#8, 0x4E#8, 0x44#8]], 0xACE1#16) := by decide

/-- V-R10, by the message row. -/
theorem test_txAck :
    see (fun t => (t.re.state, t.cha, t.re.ackTx)) (.txAck 2#16 none .ok) (acking 2#16) =
      some (.wait, [[0x00#8, 0x02#8]], 1#32) := by decide

/-- V-H5. -/
theorem test_sStart :
    see (fun t => (readAt t 0x010, t.se.toSec, t.se.toSub, t.bus)) (.sStart 0#30) (withSe (fun se => { se with toExp := 3#4 })) =
      some (1#32, 0#32, 1#10, some .writeOk) := by decide

/-- V-H15: a new session from S_FAULT. V-H6: ignored while SE runs. -/
theorem test_sStart_fault_and_running :
    see (fun t => (readAt t 0x010, seCtr t)) (.sStart 5#30)
      (withSe (fun se => { se with state := .fault, cause := .malformedAck, seq := 1#1, generated := 1#32 })) =
      some (1#32, [0#32, 0#32, 0#32, 0#32, 0#32, 0#32]) ∧
    see (fun t => t.se) (.sStart 0#30) (holding .wait) = some (holding .wait).se := by decide

/-- V-H7 and V-H19. -/
theorem test_sSoftReset :
    see (fun t => (readAt t 0x010, readAt t 0x004, readAt t 0x008, readAt t 0x028, seCtr t, t.chd)) (.sSoftReset 0#30 0#1)
      inFlight = some (0#32, 0#32, 0#32, 0xACE1#32, [0#32, 0#32, 0#32, 0#32, 0#32, 0#32], [helloFrame]) := by
  simp [see, exec, execSSoftReset, after]
  decide

/-- V-H17. -/
theorem test_rStart :
    see (fun t => (readAt t 0x090, reCtr t)) (.rStart 0#30)
      (withRe (fun re => { re with state := .done, sinkErr := true, accepted := 9#32 })) =
      some (1#32, [0#32, 0#32, 0#32, 0#32, 0#32]) := by decide

/-- R256: R_STATUS 0 and R_LFSR 0xACE1. -/
theorem test_rSoftReset :
    see (fun t => (readAt t 0x090, readAt t 0x098, reCtr t)) (.rSoftReset 0#30 1#1) (acking 1#16) =
      some (0#32, 0xACE1#32, [0#32, 0#32, 0#32, 0#32, 0#32]) := by
  simp [see, exec, execRSoftReset, after]
  decide

/-- V-H9. -/
theorem test_ctrlNop :
    see (fun t => (t.se, t.bus)) (.ctrlNop .se 0x3FFFFFFF#30) inFlight = some (inFlight.se, some .writeOk) := by decide

/-- V-H11, V-G13, V-G4, V-H18. -/
theorem test_cfgWrite_idle :
    see (fun t => readAt t 0x004) (.cfgWrite .sCfg 0xFFFFFFFF#32) State.reset = some 0x3F#32 ∧
    see (fun t => readAt t 0x008) (.cfgWrite .sLoss 0x0001FFFF#32) State.reset = some 0x10000#32 ∧
    see (fun t => readAt t 0x008) (.cfgWrite .sLoss 0x00020000#32) State.reset = some 0#32 ∧
    see (fun t => (readAt t 0x00C, readAt t 0x028)) (.cfgWrite .sSeed 0#32) State.reset = some (0#32, 0xACE1#32) ∧
    see (fun t => readAt t 0x084) (.cfgWrite .rCfg 0xFFFFFFFF#32) State.reset = some 1#32 := by decide

/-- V-H10, V-G6, V-H12. -/
theorem test_cfgWrite_running :
    see (fun t => t.se) (.cfgWrite .sCfg 0xF#32) inFlight = some inFlight.se ∧
    see (fun t => t.se) (.cfgWrite .sSeed 0x5555#32) inFlight = some inFlight.se ∧
    see (fun t => readAt t 0x014) (.cfgWrite .sIrq 1#32) inFlight = some 1#32 := by decide

/-- V-H3; V-H4 at 0x002. -/
theorem test_roWrite :
    after (exec (.roWrite 0x030#32 .b4 0x12345678#32) State.reset) = some { State.reset with bus := some .writeOk } ∧
    after (exec (.roWrite 0x002#32 .b4 1#32) State.reset) = some { State.reset with bus := some .err } := by decide

/-- V-H1, V-H2, V-H13, V-H4. -/
theorem test_csrRead :
    see State.bus (.csrRead 0x028#32 .b4) State.reset = some (some (.readOk 0xACE1#32)) ∧
    see State.bus (.csrRead 0x0FC#32 .b4) State.reset = some (some (.readOk 0#32)) ∧
    see State.bus (.csrRead 0x014#32 .b4) (withSe (fun se => { se with state := .done, doneIe := true })) =
      some (some (.readOk 0x101#32)) ∧
    see State.bus (.csrRead 0x010#32 .b2) State.reset = some (some .err) := by decide

/-- The timer at 10^15 ticks reads as V-T8 says. -/
theorem test_csrRead_timer :
    see (fun t => (readAt t 0x024, readAt t 0x020)) (.seSend none .ok)
      (withSe (fun se => { se with state := .send, toSec := 1000000000#32 })) = some (0x38D7E#32, 0xA4C68000#32) := by decide

/-- V-S1 and V-S3: S_STATUS 0x16. -/
theorem test_seReadEnd :
    see (fun t => t.se.state) (.seReadEnd 0#7 []) (seIn .read) = some .eot ∧
    see (fun t => readAt t 0x010) (.seReadEnd 81#7 (List.replicate 80 0#8)) (seIn .read) = some 0x16#32 := by decide

/-- The example of R164. -/
theorem test_seReadChunk :
    see (fun t => (t.se.state, txFrame t.se, t.se.generated)) (.seReadChunk hello) (seIn .read) =
      some (.send, helloFrame, 1#32) := by decide

/-- V-S6 and V-S8: dropped, so no send can fail. V-S7: S_STATUS 0x46. -/
theorem test_seSend :
    see (fun t => (t.se.state, seCtr t, t.chd)) (.seSend none .err)
      (withSe (fun se => { se with state := .send, lossP := 0x10000#17, generated := 1#32 })) =
      some (.wait, [1#32, 1#32, 0#32, 1#32, 0#32, 0#32], []) ∧
    see (fun t => (readAt t 0x010, seCtr t)) (.seSend none .err) (holding .send) =
      some (0x46#32, [1#32, 1#32, 0#32, 0#32, 0#32, 0#32]) := by decide

/-- V-G15: an external sample leaves the LFSR, and with none offered the engine waits. -/
theorem test_seSend_external :
    see (fun t => (t.se.state, t.se.lfsr)) (.seSend (some 0x8000#16) .ok)
      (withSe (fun se => { se with state := .send, sampleExt := true, lossP := 0x8000#17 })) = some (.wait, 0xACE1#16) ∧
    see (fun t => t.se.state) (.seSend none .ok) (withSe (fun se => { se with state := .send, sampleExt := true })) =
      some .send := by decide

/-- V-S13: S_STATUS 0x5E. V-S20: not enabled in S_DONE. -/
theorem test_seWaitRx :
    see (fun t => readAt t 0x010) (.seWaitRx .err) (withSe (fun se => { se with state := .wait, seq := 1#1 })) = some 0x5E#32 ∧
    see (fun t => (t.se.state, t.cha)) (.seWaitRx (.dgram 0 false)) { seIn .done with cha := [[0#8, 0#8]] } =
      some (.done, [[0#8, 0#8]]) := by decide

/-- V-T15: the timeout leaves the ACK in CHA. -/
theorem test_seWaitTimeout :
    see (fun t => (t.se.state, t.se.timeouts, t.se.texp, t.cha)) .seWaitTimeout inFlight =
      some (.send, 1#32, false, [[0#8, 0#8]]) := by decide

/-- V-S16: S_STATUS 0x46. -/
theorem test_seEot : see (fun t => readAt t 0x010) (.seEot .err) (seIn .eot) = some 0x46#32 := by decide

/-- V-S18: S_STATUS 0x46. -/
theorem test_seNotfound : see (fun t => readAt t 0x010) (.seNotfound .err) (seIn .notFound) = some 0x46#32 := by decide

/-- V-T9, V-T10. -/
theorem test_tick :
    see (fun t => (t.se.tmr, t.se.texp)) (.tick 9) (withSe (fun se => { se with state := .wait, tmr := 10#64 })) =
      some (1#64, false) ∧
    see (fun t => (t.se.tmr, t.se.texp)) (.tick 10) (withSe (fun se => { se with state := .wait, tmr := 10#64 })) =
      some (0#64, true) := by decide

/-- V-T12, V-T13; no pulse, no expiry. -/
theorem test_tick_zero :
    see (fun t => t.se.texp) (.tick 20) { seIn .wait with params := { Params.atReset with zeroTimeout := .never } } = some false ∧
    see (fun t => t.se.texp) (.tick 1) (seIn .wait) = some true ∧
    see (fun t => t.se.texp) (.tick 0) (seIn .wait) = some false := by decide

/-- V-R4: R_STATUS 0x55. A data frame is not R201's. -/
theorem test_reWait :
    see (fun t => readAt t 0x090) (.reWait .err) (reIn .wait) = some 0x55#32 ∧
    see (fun t => t.re.state) (.reWait (.dgram 0 false)) inFlight = some .wait := by decide

/-- V-R12's buffer with 43 44 at 6 and 7, the six bytes of its datagram at the channel's head. -/
def truncated : State :=
  { withRe (fun re => { re with state := .wait, rxbuf := (List.range 84).map (fun n => BitVec.ofNat 8 (0x3D + n)) }) with
    chd := [[0x00#8, 0x04#8, 0x00#8, 0x00#8, 0x41#8, 0x42#8]] }

/-- V-R12: the buffer keeps its bytes behind the received ones (R70); two of the four payload bytes are missing. -/
theorem test_reWaitData :
    see (fun t => ((t.re.rxbuf.drop 4).take 4, t.re.rxn, rxMissing t.re, t.re.state)) (.reWaitData 0 false) truncated =
      some ([0x41#8, 0x42#8, 0x43#8, 0x44#8], 6, 2, .deliver) := by decide

/-- V-R12, its second step: four bytes, the first two the received ones, the other two any; B + 4. -/
theorem test_reDeliver_truncated :
    ((after (exec (.reWaitData 0 false) truncated)).bind fun s =>
      see (fun t => (t.sink.take 2, t.sink.length, t.delivered.length, t.re.bytes)) (.reDeliver .ok) s) =
      some ([0x41#8, 0x42#8], 4, 4, 4#32) := by decide

/-- V-R5, its second step; the sink gains the bytes as in the example of R203. -/
theorem test_reDeliver :
    see (fun t => (t.re.state, t.re.expected, reCtr t, t.delivered)) (.reDeliver .ok) delivering =
      some (.ack, 1#1, [1#32, 0#32, 6#32, 0#32, 0#32], hello) ∧
    see (fun t => t.sink) (.reDeliver .ok) { delivering with sink := [0x41#8] } = some (0x41#8 :: hello) := by decide

/-- R67: the delivered stream is a session's. R_START begins it, a new sink leaves it, a second R_START while RE runs too. -/
theorem test_session_stream :
    see (fun t => t.delivered) (.rStart 0#30) { reIn .done with delivered := hello, sink := hello } = some [] ∧
    see (fun t => t.sink) (.rStart 0#30) { reIn .done with delivered := hello, sink := hello } = some hello ∧
    see (fun t => t.delivered) (.rStart 0#30) { reIn .wait with delivered := hello } = some hello ∧
    (after (step { reIn .done with delivered := hello, sink := hello, script := [.freshSink] })).map
      (fun t => (t.delivered, t.sink)) = some (hello, []) := by decide

/-- V-R7 and V-K5: ERR counts as well, and R_BYTES wraps. -/
theorem test_reDeliver_err :
    see (fun t => (t.re.sinkErr, reCtr t)) (.reDeliver .err)
      (withRe (fun re => { re with state := .deliver, rlen := 80#16, bytes := 0xFFFFFFD0#32 })) =
      some (true, [1#32, 0#32, 0x20#32, 0#32, 0#32]) := by decide

/-- V-R8 and V-R9. -/
theorem test_reAck :
    see (fun t => (t.re.state, t.re.ackDropped, t.cha)) (.reAck none .ok)
      (withRe (fun re => { re with state := .ack, rseq := 1#16, lossP := 0x10000#17 })) = some (.wait, 1#32, []) ∧
    see (fun t => (t.re.state, t.re.cause, reCtr t)) (.reAck none .err) (acking 1#16) =
      some (.fault, .txError, [0#32, 0#32, 0#32, 0#32, 0#32]) := by decide

/-- What the channels may do (R68): FIFO only the head, and FIFO_RELIABLE keeps nothing. -/
theorem test_channels :
    deliverAt .unordered [[1#8], [2#8]] 1 true = some ([2#8], [[1#8], [2#8]]) ∧
    deliverAt .fifoLossy [[1#8], [2#8]] 1 false = none ∧ deliverAt .fifoReliable [[1#8], [2#8]] 0 true = none ∧
    deliverAt .fifoReliable [[1#8], [2#8]] 0 false = some ([1#8], [[2#8]]) ∧ loseAt .fifoReliable [[1#8]] 0 = [[1#8]] := by
  decide

/-! ### Witnesses: hypotheses that hold together -/

/-- The channel keeps or removes the head of `inFlight`'s CHD. -/
theorem witness_delivery :
    deliverAt inFlight.params.channelMode inFlight.chd 0 false = some (helloFrame, []) ∧
    deliverThis inFlight.params.channelMode inFlight.chd helloFrame true = some [helloFrame] ∧
    deliverAt inFlight.params.channelMode inFlight.cha 0 false = some ([0#8, 0#8], []) ∧
    deliverThis inFlight.params.channelMode inFlight.cha [0#8, 0#8] false = some [] := by decide

theorem witness_DecodeInvertsEncode :
    wellFormed (.frameDataMatch helloFrame false) = true ∧ fits (ctx 0#1 0#1) (.frameDataMatch helloFrame false) = true ∧
    wellFormed (.ackMatch [0#8, 1#8] false) = true ∧ fits (ctx 0#1 1#1) (.ackMatch [0#8, 1#8] false) = true ∧
    wellFormed (.txData 1#1 (List.replicate 80 0#8) none .ok) = true ∧ wellFormed (.seReadEnd 127#7 (List.replicate 80 0#8)) = true ∧
    wellFormed (.roWrite 0x0FC#32 .b4 1#32) = true := by decide

theorem witness_EncodeInvertsDecode : decode (ctx 0#1 0#1) (.csrWrite 0x40000004#32 .b4) [1#8, 2#8, 3#8, 4#8] =
    .ok (.cfgWrite .sCfg 0x01020304#32) := rfl

theorem witness_EncodeBuildsFrame : (List.replicate 81 0#8 : List Byte).length > 80 ∧ (List.replicate 80 0#8 : List Byte).length ≤ 80 := by
  decide

/-- Three bytes; L = 81; L = 0; L = 80, cut short; L = 1 with a byte to spare (V-C19). -/
theorem witness_DecodeFollowsClasses :
    (List.replicate 84 0#8 : List Byte).length = 84 ∧ frameClass 0#1 [0#8, 1#8, 0#8] = .short ∧
    frameClass 0#1 [0#8, 81#8, 0#8, 0#8] = .overlong ∧ frameClass 0#1 [0#8, 0#8, 0#8, 0#8] = .eot ∧
    frameClass 0#1 [0#8, 80#8, 0#8, 0#8] = .dataMatch ∧ frameClass 1#1 [0#8, 1#8, 0#8, 0#8] = .dataDup ∧
    4 + lenField [0#8, 1#8, 0#8, 0#8, 7#8, 9#8] ≤ ([0#8, 1#8, 0#8, 0#8, 7#8, 9#8] : List Byte).length := by decide

theorem witness_DecodeInvertsEncodeFrame : 1 ≤ hello.length ∧ encodeFrame 0#1 hello = .ok helloFrame := ⟨by decide, rfl⟩

/-- One stale byte, and 79 of them. -/
theorem witness_TruncatedPayloadReadsBuffer :
    (4 < 4 + 1 ∧ lenField [0#8, 1#8, 0#8, 0#8] = 1) ∧ ([0#8, 80#8, 0#8, 0#8, 7#8] : List Byte).length < 4 + 80 ∧
    lenField [0#8, 80#8, 0#8, 0#8, 7#8] = 80 := by decide

theorem witness_AckRoundTrip : ([] : Datagram).length ≠ 2 ∧ ([0#8, 0#8, 0#8] : Datagram).length ≠ 2 := by decide

theorem witness_LfsrPermutesNonZero : (0xACE1#16 : Half) ≠ 0#16 ∧ 15 < 16 := by decide

theorem witness_GateCompares : drawSample false 0xACE1#16 none = some (0xE270#16, 0xE270#16) := by decide

theorem witness_CsrReadAnswersRegister : (0x0FC#32 : Word).toNat % 4 = 0 ∧ (0x0FC#32 : Word).toNat < 256 := by decide

theorem witness_BadAccessAnswersErr : Width.b1 ≠ .b4 ∧ (0x002#32 : Word).toNat % 4 ≠ 0 := by decide

theorem witness_AccessOutsideWindow :
    256 ≤ ((0x40000100#32 : Word) - (ctx 0#1 0#1).csrBase).toNat ∧ 256 ≤ ((0x3FFFFFFC#32 : Word) - (ctx 0#1 0#1).csrBase).toNat := by
  decide

/-- A read-only register, an unmapped offset at each end of a gap, a CTRL value without a command. -/
theorem witness_InertAccesses :
    csrAt 0x010 = some .sStatus ∧ csrAt 0x02C = none ∧ csrAt 0x0FC = none ∧ (0xFFFFFFFC#32 : Word).getLsbD 0 = false ∧
    (0xFFFFFFFC#32 : Word).getLsbD 1 = false := by decide

theorem witness_StartBeginsSenderSession :
    (1#32 : Word).getLsbD 0 = true ∧ (1#32 : Word).getLsbD 1 = false ∧ (seIn .idle).se.state = .idle ∧
    (seIn .done).se.state = .done ∧ (seIn .fault).se.state = .fault ∧ (seIn .notFound).se.state = .notFound := by decide

theorem witness_StartBeginsReceiverSession :
    (reIn .idle).re.state = .idle ∧ (reIn .done).re.state = .done ∧ (reIn .fault).re.state = .fault ∧
    (reIn .reserved6).re.state = .reserved6 := by decide

theorem witness_TimeoutTable :
    (withSe (fun se => { se with toExp := 15#4 })).se.toExp.toNat = 15 ∧ State.reset.se.toExp.toNat = 0 ∧
    State.reset.se.state = .idle := by decide

theorem witness_SoftResetRestoresResetValues : (2#32 : Word).getLsbD 1 = true ∧ (3#32 : Word).getLsbD 1 = true := by decide

theorem witness_HardResetRestoresResetValues :
    ({ inFlight with script := [.hardReset] } : State).script = .hardReset :: [] := rfl

theorem witness_ConfigurationWrites :
    (seIn .fault).se.state = .fault ∧ (seIn .wait).se.state = .wait ∧ (reIn .reserved7).re.state = .reserved7 ∧
    (reIn .deliver).re.state = .deliver := by decide

theorem witness_HostAccessFrame : actor (.sSoftReset 0#30 0#1) = .host ∧ actor (.csrRead 0#32 .b1) = .host := by decide

theorem witness_EnvironmentMoves :
    ({ inFlight with script := [.lose .chd 0] } : State).script = .lose .chd 0 :: [] ∧
    ({ inFlight with script := [.lose .cha 7] } : State).script = .lose .cha 7 :: [] ∧
    ({ inFlight with script := [.emptyChannels] } : State).script = .emptyChannels :: [] ∧
    ({ inFlight with script := [.freshSink] } : State).script = .freshSink :: [] := ⟨rfl, rfl, rfl, rfl⟩

/-- L = 81 and L = 127. -/
theorem witness_SourceEndOrOversize :
    (seIn .read).se.state = .read ∧ 80 < (81#7 : BitVec 7).toNat ∧ 80 < (127#7 : BitVec 7).toNat := by decide

theorem witness_ChunkIsFramed :
    (seIn .read).se.state = .read ∧ 1 ≤ ([7#8] : List Byte).length ∧ (List.replicate 80 7#8 : List Byte).length ≤ 80 := by decide

/-- LFSR mode at P = 0 and P = 0x10000, external mode at the boundary u = P, and no sample. -/
theorem witness_SendAttemptOutcomes :
    (holding .send).se.state = .send ∧ SampleIs false 0xACE1#16 none 0xE270#16 0xE270#16 ∧
    SampleIs true 0xACE1#16 (some 0x8000#16) 0x8000#16 0xACE1#16 ∧ (0#17 : BitVec 17).toNat ≤ (0xE270#16 : Half).toNat ∧
    (0xFFFF#16 : Half).toNat < (0x10000#17 : BitVec 17).toNat ∧ (0x8000#17 : BitVec 17).toNat ≤ (0x8000#16 : Half).toNat := by
  unfold SampleIs; decide

theorem witness_DataFrameIsEmitted :
    (holding .send).se.state = .send ∧ SampleIs (holding .send).se.sampleExt (holding .send).se.lfsr none 0xE270#16 0xE270#16 ∧
    (holding .send).se.lossP.toNat ≤ (0xE270#16 : Half).toNat ∧
    encodeFrame 0#1 hello = .ok ((holding .send).se.txbuf.take (holding .send).se.txlen.toNat) :=
  ⟨rfl, by unfold SampleIs; decide, by decide, rfl⟩

/-- A match, a mismatch in bit 1 and a malformed ACK, each delivered by CHA. -/
theorem witness_WaitTakesAck :
    inFlight.se.state = .wait ∧ ([0#8, 0#8] : Datagram) = be16 (inFlight.se.seq.setWidth 16) ∧
    ([0#8, 2#8] : Datagram) ≠ be16 (inFlight.se.seq.setWidth 16) ∧ ([0#8, 2#8] : Datagram).length = 2 ∧
    ([0#8] : Datagram).length ≠ 2 ∧ deliverAt .unordered [[0#8, 0#8], [0#8, 2#8], [0#8]] 2 true =
      some ([0#8], [[0#8, 0#8], [0#8, 2#8], [0#8]]) := by decide

theorem witness_AckRowsAct :
    inFlight.se.state = .wait ∧ deliverThis .unordered [[0#8, 0#8], [0#8, 2#8], [0#8]] [0#8, 2#8] false =
      some [[0#8, 0#8], [0#8]] ∧ deliverThis .unordered [[0#8, 0#8], [0#8, 2#8], [0#8]] [0#8] false =
      some [[0#8, 0#8], [0#8, 2#8]] := by decide

theorem witness_TimeoutRetransmits : inFlight.se.state = .wait ∧ inFlight.se.texp = true ∧ (holding .wait).se.texp = false := by
  decide

theorem witness_EotIsSentOnce : (seIn .eot).se.state = .eot := by decide

theorem witness_NoticeIsSentOnce :
    (seIn .notFound).se.state = .notFound ∧ (seIn .notFound).se.seq = 0#1 ∧ (seIn .notFound).params.notFoundMsg = defaultMsg := by
  decide

/-- k = 9 and k = 10 against a timer at 10, a timer at 0, and S_READ. -/
theorem witness_TickCountsDown :
    (withSe (fun se => { se with state := .wait, tmr := 10#64 })).se.state = .wait ∧ 9 < (10#64 : BitVec 64).toNat ∧
    (10#64 : BitVec 64) ≠ 0#64 ∧ (10#64 : BitVec 64).toNat ≤ 10 ∧ (seIn .wait).se.tmr = 0#64 ∧ (seIn .read).se.state ≠ .wait := by
  decide

/-- Three bytes, L = 81, and L = 0 with n = 4. -/
theorem witness_WaitTakesEndOrMalformed :
    (reIn .wait).re.state = .wait ∧ ([0#8, 1#8, 0#8] : Datagram).length < 4 ∧ 80 < lenField ([0#8, 81#8, 0#8, 0#8].take 84) ∧
    lenField ([0#8, 0#8, 0#8, 0#8].take 84) = 0 ∧ deliverAt .fifoReliable [[0#8, 81#8, 0#8, 0#8]] 0 false =
      some ([0#8, 81#8, 0#8, 0#8], []) := by decide

/-- L = 1 and L = 80, a match and a duplicate. -/
theorem witness_WaitTakesData :
    inFlight.re.state = .wait ∧ 4 ≤ helloFrame.length ∧ 1 ≤ lenField ([0#8, 1#8, 0#8, 0#8].take 84) ∧
    lenField ([0#8, 80#8, 0#8, 1#8].take 84) ≤ 80 ∧ (seqField (helloFrame.take 84)).extractLsb' 0 1 = inFlight.re.expected ∧
    (seqField ([0#8, 80#8, 0#8, 1#8].take 84)).extractLsb' 0 1 ≠ inFlight.re.expected := by decide

theorem witness_FrameRowsAct :
    inFlight.re.state = .wait ∧ deliverThis .unordered [[0#8], [0#8, 81#8, 0#8, 0#8], [0#8, 0#8, 0#8, 0#8]] [0#8, 81#8, 0#8, 0#8]
      false = some [[0#8], [0#8, 0#8, 0#8, 0#8]] := by decide

theorem witness_DeliverCountsOkAndErr :
    delivering.re.state = .deliver ∧ 4 + delivering.re.rlen.toNat ≤ delivering.re.rxn := by decide

theorem witness_AcknowledgeOutcomes :
    (acking 0x8001#16).re.state = .ack ∧
    SampleIs (acking 0x8001#16).re.sampleExt (acking 0x8001#16).re.lfsr none 0xE270#16 0xE270#16 ∧
    (acking 0x8001#16).re.lossP.toNat ≤ (0xE270#16 : Half).toNat ∧ (0xE270#16 : Half).toNat < (0xE271#17 : BitVec 17).toNat := by
  unfold SampleIs; decide

theorem witness_StepWaitsOutsideItsState :
    seHome (.seEot .ok) = some .eot ∧ (seIn .done).se.state ≠ .eot ∧ reHome (.reDeliver .ok) = some .deliver ∧
    (reIn .reserved6).re.state ≠ .deliver := by decide

theorem witness_RowsOfAnotherMessageWait :
    helloFrame ∉ State.reset.chd ∧ ([0#8, 0#8] : Datagram) ∉ State.reset.cha ∧
    (holding .send).se.txbuf.take (holding .send).se.txlen.toNat ≠ frameBytes 1#1 hello ∧ (acking 1#16).re.rseq ≠ 2#16 ∧
    deliverThis .fifoReliable [[0#8], helloFrame] helloFrame false = none ∧
    deliverAt inFlight.params.channelMode inFlight.chd 0 false = some (helloFrame, []) ∧ 4 ≤ helloFrame.length ∧
    1 ≤ lenField (helloFrame.take 84) ∧ lenField (helloFrame.take 84) ≤ 80 ∧
    (seqField (helloFrame.take 84)).extractLsb' 0 1 = inFlight.re.expected ∧
    deliverAt State.reset.params.channelMode State.reset.chd 0 false = none ∧
    State.reset.params.notFoundMsg.bytes.length ≠ (13#16 : Half).toNat := by decide

/-- The gate drops with P = 0x10000, in LFSR mode and with the sample 0xFFFF; no sample in external mode. -/
theorem witness_RowsOfAnotherMessageWait_gate :
    SampleIs false 0xACE1#16 none 0xE270#16 0xE270#16 ∧ SampleIs true 0xACE1#16 (some 0xFFFF#16) 0xFFFF#16 0xACE1#16 ∧
    (0xFFFF#16 : Half).toNat < (0x10000#17 : BitVec 17).toNat ∧
    (withSe (fun se => { se with sampleExt := true })).se.sampleExt = true := by
  unfold SampleIs; decide

theorem witness_StepRunsDecodedWord :
    inFlight.script = .word (.seStep (.recv (.dgram 0 false))) [0x03#8] :: [] ∧
    decode ⟨inFlight.params.csrBase, inFlight.re.expected, inFlight.se.seq⟩ (.seStep (.recv (.dgram 0 false))) [0x03#8] =
      .ok (.seWaitRx (.dgram 0 false)) := ⟨rfl, rfl⟩

/-- The step that the statements over every step are met by: SE takes the ACK. -/
theorem witness_step :
    (after (step inFlight)).map (fun t => (t.se.state, t.se.acked, t.cha, t.script)) = some (.read, 1#32, [], []) := by decide

/-- `inFlight` is well kept, in every sense the invariants speak of: StepKeepsInvariant, OwnTrafficIsNeverMalformed,
SenderCountersAgree and ReceiverCountersAgree have their hypotheses met by it. -/
theorem witness_invariants : Inv inFlight ∧ WireInv inFlight ∧ NoMalformed inFlight ∧ SeCounters 0#32 inFlight.se ∧
    ReCounters inFlight.delivered inFlight.re := by
  refine ⟨⟨⟨?_, ?_, ?_, ?_, ?_, ?_, ?_, ?_, ?_, ?_, ?_⟩, ⟨?_, ?_, ?_, ?_, ?_, ?_, ?_, ?_⟩⟩, ⟨?_, ?_⟩, ?_, ⟨?_, ?_, ?_, ?_, ?_, ?_, ?_, ?_⟩,
    ⟨?_, ?_, ?_, ?_⟩⟩
  case refine_10 => exact fun _ => ⟨hello, by decide, by decide, by decide⟩
  case refine_20 =>
    intro f hf
    exact ⟨0#1, hello, by decide, (List.mem_singleton.mp hf).trans (by decide)⟩
  all_goals first
    | decide
    | (unfold NoMalformed; decide)
    | (unfold seCountersZero; decide)

theorem witness_BytesCountDeliveredStream : Inv delivering ∧ delivering.re.state = .deliver := by
  refine ⟨⟨⟨?_, ?_, ?_, ?_, ?_, ?_, ?_, ?_, ?_, ?_, ?_⟩, ⟨?_, ?_, ?_, ?_, ?_, ?_, ?_, ?_⟩⟩, ?_⟩
  case refine_10 => exact fun h => absurd h (by decide)
  all_goals decide

/-- RE holds V-C20's truncated frame: 2 of its 4 payload bytes. -/
def holdingTruncated : State :=
  withRe (fun re => { rxLoad [0x00#8, 0x04#8, 0x00#8, 0x00#8, 0x41#8, 0x42#8] re with
    state := .deliver, rlen := 4#16, rseq := 0x0000#16 })

/-- The truncated form of DeliverCountsOkAndErr. -/
theorem witness_DeliverCountsOkAndErr_truncated :
    Inv holdingTruncated ∧ holdingTruncated.re.state = .deliver ∧ holdingTruncated.re.rxn < 4 + holdingTruncated.re.rlen.toNat := by
  refine ⟨⟨⟨?_, ?_, ?_, ?_, ?_, ?_, ?_, ?_, ?_, ?_, ?_⟩, ⟨?_, ?_, ?_, ?_, ?_, ?_, ?_, ?_⟩⟩, ?_⟩
  case refine_10 => exact fun h => absurd h (by decide)
  all_goals decide

/-- A fault of SE and one of RE, from states that are none. -/
theorem witness_FaultRecordsCause :
    inFlight.se.state ≠ .fault ∧ see (fun t => t.se.state) (.seWaitRx .err) inFlight = some .fault ∧
    inFlight.re.state ≠ .fault ∧ see (fun t => t.re.state) (.reWait .err) inFlight = some .fault := by decide

theorem witness_FrameInFlightIsKept :
    inFlight.se.state = .wait ∧ see (fun t => t.se.state) .seWaitTimeout inFlight = some .send := by decide

/-- V-R5 and V-R6 as the chain of SecondCopyIsDuplicate: taken, delivered, acknowledged, and the copy still in the channel. -/
theorem witness_SecondCopyIsDuplicate :
    ((after (exec (.frameDataMatch helloFrame true) inFlight)).bind fun s2 =>
      (after (exec (.reDeliver .ok) s2)).bind fun s3 =>
        (after (exec (.reAck none .ok) s3)).map fun s4 => (s2.re.state, s4.re.state, s4.re.expected, s4.chd)) =
      some (.deliver, .wait, 1#1, [helloFrame]) := by decide

theorem witness_EnginesShareNothing : actor .seWaitTimeout = .se ∧ actor (.tick 1) = .timebase ∧ actor (.reDeliver .ok) = .re := by
  decide

end Sys2Proof.Tests
end

section
/-! PROOFS. The step of a port word: what is fetched, and that the instruction runs in the state without the event. -/

namespace Sys2Proof.Machine

theorem fetch_of_decode {s : State} {p : Port} {bs : List Byte} {rest : List Event} {i : Instr}
    (hs : s.script = .word p bs :: rest) (hd : decode (ctxOf s) p bs = .ok i) : fetch s = .instr i (popEvent s) := by
  unfold fetch
  rw [hs]
  simp only [hd]

theorem step_of_fetch_instr {s t : State} {i : Instr} (h : fetch s = .instr i t) : step s = exec i t := by
  unfold step
  rw [h]

theorem popEvent_of_script {s : State} {e : Event} {rest : List Event} (hs : s.script = e :: rest) :
    popEvent s = { s with script := rest } := by
  rw [popEvent, hs, List.tail_cons]

/-- Settles O45: the fetch decodes the word in the machine's context and pops it, and the step runs what was fetched. -/
theorem stepRunsDecodedWord : Obligations.StepRunsDecodedWord := by
  intro s p bs rest i hs hd
  rw [step_of_fetch_instr (fetch_of_decode hs hd), popEvent_of_script hs]

end Sys2Proof.Machine
end

section
/-! PROOFS. Noninterference of the engines (00_scope.md R3, 60_exceptions.md R293). A transition of one engine commutes with
every replacement of the other engine's registers: it reads none of them and writes none. -/

namespace Sys2Proof.Machine

/-- The registers of RE replaced by `re'`. -/
def withRe (re' : Receiver) (s : State) : State := { s with re := re' }

@[simp] theorem withRe_se (re' : Receiver) (s : State) : (withRe re' s).se = s.se := rfl
@[simp] theorem withRe_cha (re' : Receiver) (s : State) : (withRe re' s).cha = s.cha := rfl
@[simp] theorem withRe_params (re' : Receiver) (s : State) : (withRe re' s).params = s.params := rfl

/-- The registers of SE replaced by `se'`. -/
def withSe (se' : Sender) (s : State) : State := { s with se := se' }

@[simp] theorem withSe_re (se' : Sender) (s : State) : (withSe se' s).re = s.re := rfl
@[simp] theorem withSe_chd (se' : Sender) (s : State) : (withSe se' s).chd = s.chd := rfl
@[simp] theorem withSe_params (se' : Sender) (s : State) : (withSe se' s).params = s.params := rfl

/-- A choice between two transitions commutes with a replacement that both commute with and that the test does not see. -/
theorem commute_ite {f k g : State → State} {c : State → Prop} [DecidablePred c] (hf : Function.Commute f g)
    (hk : Function.Commute k g) (hc : ∀ s, c (g s) ↔ c s) :
    Function.Commute (fun s => if c s then f s else k s) g := by
  intro s
  by_cases h : c s
  · simp only [hc, h, if_true, hf s]
  · simp only [hc, h, if_false, hk s]

/-- A step that waits where it is not enabled (00_scope.md R12) commutes with a replacement that its guard does not see. -/
theorem commute_guard {f g : State → State} {c : State → Prop} [DecidablePred c] (hf : Function.Commute f g)
    (hc : ∀ s, c (g s) ↔ c s) : Function.Commute (fun s => if c s then f s else s) g :=
  commute_ite hf (fun _ => rfl) hc

/-! ### No transition of SE sees RE -/

section
variable (re' : Receiver)

theorem seTake_commute_withRe (d : Datagram) (q : List Datagram) : Function.Commute (seTake d q) (withRe re') := by
  unfold seTake
  cases decodeAck d with
  | error => exact fun _ => rfl
  | ok a => exact commute_ite (fun _ => rfl) (fun _ => rfl) fun _ => .rfl

theorem seTakeClass_commute_withRe (k : AckClass) (d : Datagram) (keep : Bool) :
    Function.Commute (seTakeClass k d keep) (withRe re') := by
  refine commute_guard (fun s => ?_) fun _ => .rfl
  simp only [withRe_params, withRe_cha]
  cases deliverThis s.params.channelMode s.cha d keep with
  | none => rfl
  | some q => exact seTake_commute_withRe re' d q s

theorem seRecv_commute_withRe (rx : Recv) : Function.Commute (seRecv rx) (withRe re') := by
  refine commute_guard (fun s => ?_) fun _ => .rfl
  cases rx with
  | err => rfl
  | dgram i keep =>
    simp only [withRe_params, withRe_cha]
    cases deliverAt s.params.channelMode s.cha i keep with
    | none => rfl
    | some dq => exact seTake_commute_withRe re' dq.1 dq.2 s

theorem seSourceEnd_commute_withRe (len : BitVec 7) : Function.Commute (seSourceEnd len) (withRe re') :=
  commute_guard (commute_ite (fun _ => rfl) (commute_guard (fun _ => rfl) fun _ => .rfl) fun _ => .rfl) fun _ => .rfl

theorem seChunk_commute_withRe (b : List Byte) : Function.Commute (seChunk b) (withRe re') := by
  refine commute_guard (fun s => ?_) fun _ => .rfl
  simp only [withRe_se]
  cases encodeFrame s.se.seq b <;> rfl

theorem seExpire_commute_withRe : Function.Commute seExpire (withRe re') :=
  commute_guard (fun _ => rfl) fun _ => .rfl

theorem sendWith_commute_withRe (u l : Half) (r : Resp) : Function.Commute (sendWith u l r) (withRe re') :=
  commute_ite (fun _ => rfl) (fun _ => by cases r <;> rfl) fun _ => .rfl

theorem sendAttempt_commute_withRe (smp : Option Half) (r : Resp) :
    Function.Commute (sendAttempt smp r) (withRe re') := by
  refine commute_guard (fun s => ?_) fun _ => .rfl
  simp only [seSample, withRe_se]
  cases drawSample s.se.sampleExt s.se.lfsr smp with
  | none => rfl
  | some ul => exact sendWith_commute_withRe re' ul.1 ul.2 r s

theorem sendEot_commute_withRe (r : Resp) : Function.Commute (sendEot r) (withRe re') :=
  commute_guard (fun _ => by cases r <;> rfl) fun _ => .rfl

theorem sendNotice_commute_withRe (r : Resp) : Function.Commute (sendNotice r) (withRe re') :=
  commute_guard (fun _ => by cases r <;> rfl) fun _ => .rfl

/-- A step of SE, and a tick, does the same with any RE beside it. -/
theorem exec_withRe {i : Instr} {s t : State} (ha : actor i = .se ∨ actor i = .timebase) (h : exec i s = .next t) :
    exec i (withRe re' s) = .next (withRe re' t) := by
  cases i <;> simp only [actor, reduceCtorEq, or_self, or_false, or_true] at ha <;> cases h <;>
    refine congrArg Host.Outcome.next ?_
  case ackMalformed d k => exact seTakeClass_commute_withRe re' _ d k s
  case ackMatch d k => exact seTakeClass_commute_withRe re' _ d k s
  case ackMismatch d k => exact seTakeClass_commute_withRe re' _ d k s
  case txData sq p smp r =>
    exact commute_guard (c := fun s => emitsData sq p smp s) (sendAttempt_commute_withRe re' smp r) (fun _ => .rfl) s
  case txEot sq r =>
    exact commute_guard (c := fun s => s.se.seq = sq) (sendEot_commute_withRe re' r) (fun _ => .rfl) s
  case txNotfound len r =>
    exact commute_guard (c := fun s => s.params.notFoundMsg.bytes.length = len.toNat ∧ s.se.seq = 0#1)
      (sendNotice_commute_withRe re' r) (fun _ => .rfl) s
  case seReadEnd len b => exact seSourceEnd_commute_withRe re' len s
  case seReadChunk b => exact seChunk_commute_withRe re' b s
  case seSend smp r => exact sendAttempt_commute_withRe re' smp r s
  case seWaitRx rx => exact seRecv_commute_withRe re' rx s
  case seWaitTimeout => exact seExpire_commute_withRe re' s
  case seEot r => exact sendEot_commute_withRe re' r s
  case seNotfound r => exact sendNotice_commute_withRe re' r s
  case tick k => rfl

end

/-! ### No transition of RE sees SE -/

section
variable (se' : Sender)

theorem reTake_commute_withSe (d : Datagram) (q : List Datagram) : Function.Commute (reTake d q) (withSe se') := by
  intro s
  simp only [reTake, withSe_re]
  cases decodeFrame (rxKept d).length (rxLoad d s.re).rxbuf with
  | error => rfl
  | ok f =>
    by_cases hz : f.len = 0#16
    · simp only [hz, if_true]; rfl
    · by_cases hs : seqBit f.seq = s.re.expected
      · simp only [hz, hs, if_true, if_false]; rfl
      · simp only [hz, hs, if_false]; rfl

theorem reTakeClass_commute_withSe (k : FrameClass) (d : Datagram) (keep : Bool) :
    Function.Commute (reTakeClass k d keep) (withSe se') := by
  refine commute_guard (fun s => ?_) fun _ => .rfl
  simp only [withSe_params, withSe_chd]
  cases deliverThis s.params.channelMode s.chd d keep with
  | none => rfl
  | some q => exact reTake_commute_withSe se' d q s

theorem reRecv_commute_withSe (data : Bool) (rx : Recv) : Function.Commute (reRecv data rx) (withSe se') := by
  refine commute_guard (fun s => ?_) fun _ => .rfl
  cases rx with
  | err => rfl
  | dgram i keep =>
    simp only [withSe_params, withSe_chd]
    cases deliverAt s.params.channelMode s.chd i keep with
    | none => rfl
    | some dq =>
      exact commute_guard (c := fun s => isDataClass (frameClass s.re.expected (rxKept dq.1)) = data)
        (reTake_commute_withSe se' dq.1 dq.2) (fun _ => .rfl) s

theorem deliverPayload_commute_withSe (r : Resp) : Function.Commute (deliverPayload r) (withSe se') :=
  commute_guard (fun _ => by cases r <;> rfl) fun _ => .rfl

theorem ackWith_commute_withSe (u l : Half) (r : Resp) : Function.Commute (ackWith u l r) (withSe se') :=
  commute_ite (fun _ => rfl) (fun _ => by cases r <;> rfl) fun _ => .rfl

theorem ackAttempt_commute_withSe (smp : Option Half) (r : Resp) :
    Function.Commute (ackAttempt smp r) (withSe se') := by
  refine commute_guard (fun s => ?_) fun _ => .rfl
  simp only [reSample, withSe_re]
  cases drawSample s.re.sampleExt s.re.lfsr smp with
  | none => rfl
  | some ul => exact ackWith_commute_withSe se' ul.1 ul.2 r s

/-- A step of RE does the same with any SE beside it. -/
theorem exec_withSe {i : Instr} {s t : State} (ha : actor i = .re) (h : exec i s = .next t) :
    exec i (withSe se' s) = .next (withSe se' t) := by
  cases i <;> simp only [actor, reduceCtorEq] at ha <;> cases h <;> refine congrArg Host.Outcome.next ?_
  case frameShort d k => exact reTakeClass_commute_withSe se' _ d k s
  case frameEot d k => exact reTakeClass_commute_withSe se' _ d k s
  case frameOverlong d k => exact reTakeClass_commute_withSe se' _ d k s
  case frameDataMatch d k => exact reTakeClass_commute_withSe se' _ d k s
  case frameDataDup d k => exact reTakeClass_commute_withSe se' _ d k s
  case txAck a smp r =>
    exact commute_guard (c := fun s => emitsAck a smp s) (ackAttempt_commute_withSe se' smp r) (fun _ => .rfl) s
  case reWait rx => exact reRecv_commute_withSe se' false rx s
  case reWaitData i k => exact reRecv_commute_withSe se' true (.dgram i k) s
  case reDeliver r => exact deliverPayload_commute_withSe se' r s
  case reAck smp r => exact ackAttempt_commute_withSe se' smp r s

end

/-- Settles O59: the transitions of either engine commute with every replacement of the other one's registers. -/
theorem enginesShareNothing : Obligations.EnginesShareNothing :=
  fun _ _ _ h => ⟨fun ha re' => exec_withRe re' ha h, fun ha se' => exec_withSe se' ha h⟩

end Sys2Proof.Machine
end

section
/-! PROOFS. What an engine's move leaves alone (10_state.md R24, R27, R31, R35): the other engine, the environment it does not
use, its own configuration and enables. -/

namespace Sys2Proof.Machine

section
variable {s t : State}

/-- A move of SE leaves RE, the sink's side of the environment and the model's own fields. -/
theorem SeMove.keeps_rest (m : SeMove s t) :
    t.re = s.re ∧ t.delivered = s.delivered ∧ t.sink = s.sink ∧ t.freeCtr = s.freeCtr ∧ t.bus = s.bus ∧
      t.script = s.script ∧ t.params = s.params := by
  cases m <;> exact ⟨rfl, rfl, rfl, rfl, rfl, rfl, rfl⟩

/-- A move of SE leaves S_CFG, S_LOSS, S_SEED, the enables of S_IRQ and the derived timeout. -/
theorem SeMove.keeps_configuration (m : SeMove s t) :
    t.se.toExp = s.se.toExp ∧ t.se.srcMissing = s.se.srcMissing ∧ t.se.sampleExt = s.se.sampleExt ∧
      t.se.lossP = s.se.lossP ∧ t.se.seed = s.se.seed ∧ t.se.doneIe = s.se.doneIe ∧ t.se.faultIe = s.se.faultIe ∧
      t.se.toSec = s.se.toSec ∧ t.se.toSub = s.se.toSub := by
  cases m with
  | ticks k h =>
    obtain ⟨tmr, texp, he⟩ := tickMany_frame s.params.zeroTimeout k s.se
    rw [he]
    exact ⟨rfl, rfl, rfl, rfl, rfl, rfl, rfl, rfl, rfl⟩
  | _ => exact ⟨rfl, rfl, rfl, rfl, rfl, rfl, rfl, rfl, rfl⟩

/-- SE takes from CHA in S_WAIT only. -/
theorem SeMove.keeps_cha (m : SeMove s t) (hw : s.se.state ≠ .wait) : t.cha = s.cha := by
  cases m with
  | badAck h => exact absurd h hw
  | ackHit h => exact absurd h hw
  | ackMiss h => exact absurd h hw
  | _ => rfl

/-- SE sends nothing in S_WAIT and S_READ. -/
theorem SeMove.keeps_chd (m : SeMove s t) (hw : s.se.state = .wait ∨ s.se.state = .read) : t.chd = s.chd := by
  cases m with
  | sent h => simp [h] at hw
  | eotSent h => simp [h] at hw
  | noticeSent h => simp [h] at hw
  | _ => rfl

/-- SE draws a sample in S_SEND only. -/
theorem SeMove.keeps_lfsr (m : SeMove s t) (hs : s.se.state ≠ .send) : t.se.lfsr = s.se.lfsr := by
  cases m with
  | dropped h => exact absurd h hs
  | sendErr h => exact absurd h hs
  | sent h => exact absurd h hs
  | ticks k h =>
    obtain ⟨tmr, texp, he⟩ := tickMany_frame s.params.zeroTimeout k s.se
    rw [he]
  | _ => rfl

/-- A move of RE leaves SE and those of the model's own fields that no delivery draws on. -/
theorem ReMove.keeps_rest (m : ReMove s t) :
    t.se = s.se ∧ t.bus = s.bus ∧ t.script = s.script ∧ t.params = s.params := by
  cases m with
  | delivers h r => simp
  | _ => exact ⟨rfl, rfl, rfl, rfl⟩

/-- A move of RE leaves R_CFG, R_LOSS, R_SEED and the enables of R_IRQ. -/
theorem ReMove.keeps_configuration (m : ReMove s t) :
    t.re.sampleExt = s.re.sampleExt ∧ t.re.lossP = s.re.lossP ∧ t.re.seed = s.re.seed ∧ t.re.doneIe = s.re.doneIe ∧
      t.re.faultIe = s.re.faultIe := by
  cases m <;> exact ⟨rfl, rfl, rfl, rfl, rfl⟩

/-- RE takes from CHD, into its buffer, in R_WAIT only. -/
theorem ReMove.keeps_chd_buffer (m : ReMove s t) (hw : s.re.state ≠ .wait) :
    t.chd = s.chd ∧ t.re.rxbuf = s.re.rxbuf ∧ t.re.rxn = s.re.rxn := by
  cases m with
  | malformed h => exact absurd h hw
  | ended h => exact absurd h hw
  | takesNew h => exact absurd h hw
  | takesDup h => exact absurd h hw
  | delivers h r => simp
  | _ => exact ⟨rfl, rfl, rfl⟩

/-- RE sends, and draws a sample, in R_ACK only. -/
theorem ReMove.keeps_cha_lfsr (m : ReMove s t) (ha : s.re.state ≠ .ack) : t.cha = s.cha ∧ t.re.lfsr = s.re.lfsr := by
  cases m with
  | ackDropped h => exact absurd h ha
  | ackErr h => exact absurd h ha
  | acked h => exact absurd h ha
  | delivers h r => simp
  | _ => exact ⟨rfl, rfl⟩

/-- RE hands bytes over in R_DELIVER only. -/
theorem ReMove.keeps_delivered_sink (m : ReMove s t) (hd : s.re.state ≠ .deliver) :
    t.delivered = s.delivered ∧ t.sink = s.sink ∧ t.freeCtr = s.freeCtr := by
  cases m with
  | delivers h r => exact absurd h hd
  | _ => exact ⟨rfl, rfl, rfl⟩

end

/-- Settles O60: an engine's step and a tick make a move of that engine, or nothing happens; each move has the frame. -/
theorem engineStepFrame : Obligations.EngineStepFrame := by
  refine fun i s t hx => ⟨fun ha => ?_, fun ha => ?_⟩
  · obtain rfl | m := exec_se_moves ha hx
    · simp
    · obtain ⟨hre, hdel, hsink, hctr, hbus, hscript, hparams⟩ := m.keeps_rest
      obtain ⟨hexp, hsrc, hext, hloss, hseed, hdone, hfault, hsec, hsub⟩ := m.keeps_configuration
      exact ⟨hre, hdel, hsink, hctr, hbus, hscript, hparams, hexp, hsrc, hext, hloss, hseed, hdone, hfault, hsec, hsub,
        m.keeps_cha, m.keeps_chd, m.keeps_lfsr⟩
  · obtain rfl | m := exec_re_moves ha hx
    · simp
    · obtain ⟨hse, hbus, hscript, hparams⟩ := m.keeps_rest
      obtain ⟨hext, hloss, hseed, hdone, hfault⟩ := m.keeps_configuration
      exact ⟨hse, hbus, hscript, hparams, hext, hloss, hseed, hdone, hfault, m.keeps_chd_buffer, m.keeps_cha_lfsr,
        m.keeps_delivered_sink⟩

end Sys2Proof.Machine
end

section
/-! PROOFS. Every step keeps the invariant of both engines. Each update that a move makes of an engine's registers keeps the
invariant by a rule of its own; a move is a chain of such updates. -/

namespace Sys2Proof.Machine

/-! ### Bounds of single values -/

/-- `lfsr_step` never leads to 0 (41_loss_gate.md R145): the mask sets bit 15, which a shift to the right clears. -/
theorem lfsrStep_ne_zero {a : Half} (ha : a ≠ 0#16) : lfsrStep a ≠ 0#16 := by
  intro h
  unfold lfsrStep at h
  split at h
  · have h15 := congrArg (BitVec.getLsbD · 15) h
    simp at h15
  · rename_i h0
    have hodd : ¬ a.toNat % 2 = 1 := by simpa [BitVec.toNat_eq] using h0
    bv_omega

theorem seedLfsr_ne_zero (v : Half) : seedLfsr v ≠ 0#16 := by
  unfold seedLfsr
  split
  · decide
  · assumption

theorem clampLoss_le (v : Word) : (clampLoss v).toNat ≤ 65536 := by
  unfold clampLoss
  split
  · decide
  · rename_i h
    exact BitVec.not_lt.mp h

/-- A drawn sample leaves an LFSR that is not 0. -/
theorem SampleIs.lfsr_ne_zero {ext : Bool} {lfsr : Half} {smp : Option Half} {u l : Half} (hs : SampleIs ext lfsr smp u l)
    (h : lfsr ≠ 0#16) : l ≠ 0#16 := by
  obtain ⟨-, rfl, rfl⟩ | ⟨-, -, rfl⟩ := hs
  · exact lfsrStep_ne_zero h
  · exact h

/-- The exponent has 4 bits, so it is at most 15 (42_sender.md R161). -/
theorem timeoutMs_le (e : BitVec 4) : timeoutMs e ≤ 1000000000000 := by
  have : 10 ^ e.toNat ≤ 10 ^ 15 := Nat.pow_le_pow_right (by decide) (by omega)
  unfold timeoutMs
  omega

/-- A sequence bit has two values: it is one, or it is not the other. -/
theorem bit_eq_iff_ne_flip (a b : Bit) : a = b ↔ a ≠ b ^^^ 1#1 := by
  revert a b; decide

/-! ### The updates of SE -/

namespace SeInv
variable {se : Sender}

/-- SE after reset, whatever TXBUF and TXLEN hold (70_reset_and_hazards.md R310). -/
theorem atReset {buf : List Byte} (hb : buf.length = 84) (len : BitVec 7) : SeInv (Sender.atReset buf len) where
  buf := hb
  loss := Nat.zero_le _
  lfsr := by simp [Sender.atReset]
  sec := Nat.zero_le _
  sub := by simp [Sender.atReset]
  cause := by simp [Sender.atReset]
  wait := Nat.zero_le _
  timer := by simp [Sender.atReset]
  expiry := fun _ => rfl
  frame := by simp [Sender.atReset]
  notice := fun _ => rfl

/-- A fault keeps everything written before it (60_exceptions.md R283). -/
theorem faults (h : SeInv se) {c : Cause} (hc : c ≠ .none) : SeInv { se with cause := c, state := .fault } :=
  { h with
    cause := iff_of_true rfl hc
    timer := fun _ => .inr rfl
    frame := by simp
    notice := by simp }

/-- The invariant does not speak of the counters. -/
theorem counts (h : SeInv se) (g a o d k n : BitVec 32) : SeInv { se with
    generated := g, txAttempts := a, txOk := o, dropped := d, acked := k, timeouts := n } :=
  { h with }

theorem samples (h : SeInv se) {l : Half} (hl : l ≠ 0#16) : SeInv { se with lfsr := l } :=
  { h with lfsr := hl }

/-- The end of a wait leaves the timer at 0 and no expiry (42_sender.md R166, R167). -/
theorem stops (h : SeInv se) {n : BitVec 64} (hn : n = 0#64) : SeInv { se with tmr := n, texp := false } :=
  { h with
    wait := by simp [hn]
    timer := by simp [hn]
    expiry := by simp }

/-- A frame is put into the buffer before the attempts begin (R164, R169). -/
theorem loads (h : SeInv se) (hs : se.state ≠ .send ∧ se.state ≠ .wait) {f : List Byte} (hf : f.length ≤ 84) :
    SeInv (loadFrame f se) :=
  { h with
    buf := (overwrite_length (by rw [h.buf]; exact hf)).trans h.buf
    frame := fun hst => absurd hst (by simp [hs]) }

/-- Outside S_WAIT and S_FAULT the timer is stopped. -/
theorem stopped (h : SeInv se) (hs : se.state ≠ .wait ∧ se.state ≠ .fault) : se.tmr = 0#64 ∧ se.texp = false := by
  have ht := mt h.timer (by simp [hs])
  simpa using ht

/-- SE goes on to another state, with the timer stopped and perhaps its bit toggled. -/
theorem goes (h : SeInv se) (st : SeState) (hf : se.state ≠ .fault) (ht : se.tmr = 0#64 ∧ se.texp = false)
    (hst : st ≠ .fault) {q : Bit} (hframe : st = .send ∨ st = .wait → IsDataFrameOf q (txFrame se))
    (hnotice : st = .notFound → q = 0#1) : SeInv { se with state := st, seq := q } :=
  { h with
    cause := iff_of_false hst (mt h.cause.mpr hf)
    timer := by simp [ht]
    frame := hframe
    notice := hnotice }

/-- The wait is armed with the effective wait, the frame standing in the buffer (R165). -/
theorem arms (h : SeInv se) (hs : se.state = .send) : SeInv (armWait se) :=
  { h with
    cause := iff_of_false (by simp) (mt h.cause.mpr (by simp [hs]))
    wait := by rw [armWait_tmr, BitVec.toNat_ofNat]; exact Nat.mod_le _ _
    timer := fun _ => .inl rfl
    expiry := by simp
    frame := fun _ => h.frame (.inl hs)
    notice := by simp }

/-- One pulse of the timebase (R170, R171). -/
theorem pulses (z : ZeroTimeout) (h : SeInv se) : SeInv (tickOnce z se) := by
  obtain he | ⟨hw, hne, he⟩ | ⟨hw, hz, -, he⟩ := tickOnce_cases z se <;> rw [he]
  · exact h
  · have hx : ¬ se.texp = true := mt h.expiry hne
    have hle : (se.tmr - 1#64).toNat ≤ se.tmr.toNat := by bv_omega
    have hzero : se.tmr = 1#64 → se.tmr - 1#64 = 0#64 := by bv_omega
    exact { h with
      wait := hle.trans h.wait
      timer := fun _ => .inl hw
      expiry := by simpa [hx] using hzero }
  · exact { h with
      timer := fun _ => .inl hw
      expiry := fun _ => hz }

/-- A session begins (45_host_commands.md R253) with the timeout derived by 42_sender.md R161. -/
theorem starts (h : SeInv se) {st : SeState} (hst : st = .read ∨ st = .notFound) : SeInv { se with
    generated := 0#32, txAttempts := 0#32, txOk := 0#32, dropped := 0#32, acked := 0#32, timeouts := 0#32
    seq := 0#1, cause := .none, tmr := 0#64, texp := false
    toSec := BitVec.ofNat 32 (timeoutMs se.toExp / 1000)
    toSub := BitVec.ofNat 10 (timeoutMs se.toExp % 1000), state := st } := by
  have hms := timeoutMs_le se.toExp
  exact { h with
    sec := by simp only [BitVec.toNat_ofNat]; omega
    sub := by simp only [BitVec.toNat_ofNat]; omega
    cause := by rcases hst with rfl | rfl <;> simp
    wait := Nat.zero_le _
    timer := by simp
    expiry := by simp
    frame := by rcases hst with rfl | rfl <;> simp
    notice := fun _ => rfl }

/-- The configuration registers keep P at most `0x10000` and the LFSR from 0 (45_host_commands.md R258). -/
theorem configures {s : State} (h : SeInv s.se) (r : CfgReg) (v : Word) : SeInv (writeCfg r v s).se := by
  cases r <;> unfold writeCfg <;> dsimp only
  case sCfg => split; exacts [h, { h with }]
  case sLoss => split; exacts [h, { h with loss := clampLoss_le v }]
  case sSeed => split; exacts [h, { h with lfsr := seedLfsr_ne_zero _ }]
  case sIrq => exact { h with }
  case rCfg => split <;> exact h
  case rLoss => split <;> exact h
  case rSeed => split <;> exact h
  case rIrq => exact h

end SeInv

/-- The notice fits the buffer (R95). -/
theorem noticeFrame_length_le (s : State) : (noticeFrame s).length ≤ 84 := by
  have := s.params.notFoundMsg.short
  rw [noticeFrame, frameBytes_length]
  omega

/-- A move of SE keeps its invariant. -/
theorem SeMove.keeps_seInv {s t : State} (m : SeMove s t) (h : SeInv s.se) : SeInv t.se := by
  cases m with
  | readEnd hs => exact h.goes .eot (by simp [hs]) (h.stopped (by simp [hs])) (by decide) (by simp) (by simp)
  | oversize hs => exact h.faults (by decide)
  | chunk hs b h1 h80 =>
    have hl : (frameBytes s.se.seq b).length ≤ 84 := by rw [frameBytes_length]; omega
    have hg := (h.loads (by simp [hs]) hl).goes .send (by simp [hs]) (h.stopped (by simp [hs])) (by decide)
      (fun _ => ⟨b, h1, h80, txFrame_loadFrame s.se hl⟩) (by simp)
    exact hg.counts _ _ _ _ _ _
  | dropped hs u l smp hu => exact ((h.samples (hu.lfsr_ne_zero h.lfsr)).arms hs).counts _ _ _ _ _ _
  | sendErr hs u l smp hu => exact ((h.samples (hu.lfsr_ne_zero h.lfsr)).faults (by decide)).counts _ _ _ _ _ _
  | sent hs u l smp hu => exact ((h.samples (hu.lfsr_ne_zero h.lfsr)).arms hs).counts _ _ _ _ _ _
  | rxErr hs => exact h.faults (by decide)
  | badAck hs => exact h.faults (by decide)
  | ackHit hs =>
    exact ((h.stops rfl).goes .read (by simp [hs]) ⟨rfl, rfl⟩ (by decide) (by simp) (by simp)).counts _ _ _ _ _ _
  | ackMiss hs =>
    exact (h.stops rfl).goes .send (by simp [hs]) ⟨rfl, rfl⟩ (by decide) (fun _ => h.frame (.inr hs)) (by simp)
  | expires hs hx =>
    have h0 := h.expiry hx
    exact ((h.stops h0).goes .send (by simp [hs]) ⟨h0, rfl⟩ (by decide) (fun _ => h.frame (.inr hs)) (by simp)).counts
      _ _ _ _ _ _
  | eotErr hs => exact h.faults (by decide)
  | eotSent hs => exact h.goes .done (by simp [hs]) (h.stopped (by simp [hs])) (by decide) (by simp) (by simp)
  | noticeErr hs => exact (h.loads (by simp [hs]) (noticeFrame_length_le s)).faults (by decide)
  | noticeSent hs =>
    exact (h.loads (by simp [hs]) (noticeFrame_length_le s)).goes .eot (by simp [hs]) (h.stopped (by simp [hs]))
      (by decide) (by simp) (by simp)
  | ticks k hs => exact tickMany_keeps (P := SeInv) _ (fun _ => .pulses _) k s.se h

/-! ### The updates of RE -/

namespace ReInv
variable {re : Receiver}

/-- RE after reset, whatever RXBUF, RLEN and RSEQ hold (70_reset_and_hazards.md R310). -/
theorem atReset {buf : List Byte} (hb : buf.length = 84) (rlen rseq : Half) : ReInv (Receiver.atReset buf rlen rseq) where
  buf := hb
  loss := Nat.zero_le _
  lfsr := by simp [Receiver.atReset]
  legal := by simp [Receiver.atReset]
  cause := by simp [Receiver.atReset]
  kept := by simp [Receiver.atReset]
  deliver := by simp [Receiver.atReset]
  ack := by simp [Receiver.atReset]

/-- A fault keeps everything written before it (60_exceptions.md R283). -/
theorem faults (h : ReInv re) {c : Cause} (hc : c ≠ .none) : ReInv { re with cause := c, state := .fault } :=
  { h with
    legal := by simp
    cause := iff_of_true rfl hc
    kept := ⟨h.kept.1, by simp⟩
    deliver := by simp
    ack := by simp }

/-- The invariant does not speak of the counters and of SINK_ERR. -/
theorem counts (h : ReInv re) (a d b k n : BitVec 32) (e : Bool) : ReInv { re with
    accepted := a, duplicates := d, bytes := b, ackTx := k, ackDropped := n, sinkErr := e } :=
  { h with }

theorem samples (h : ReInv re) {l : Half} (hl : l ≠ 0#16) : ReInv { re with lfsr := l } :=
  { h with lfsr := hl }

/-- In R_WAIT a datagram is put into the buffer (20_memory.md R70). -/
theorem loads (h : ReInv re) (hs : re.state = .wait) (d : Datagram) : ReInv (rxLoad d re) :=
  { h with
    buf := rxLoad_buf_length h.buf d
    kept := ⟨rxKept_length_le d, by simp [hs]⟩ }

/-- A running RE goes on to R_WAIT or R_DONE, where no frame is being handled. -/
theorem goes (h : ReInv re) (st : ReState) (hf : re.state ≠ .fault) (hst : st = .wait ∨ st = .done) :
    ReInv { re with state := st } :=
  { h with
    legal := by rcases hst with rfl | rfl <;> simp
    cause := iff_of_false (by rcases hst with rfl | rfl <;> simp) (mt h.cause.mpr hf)
    kept := ⟨h.kept.1, by rcases hst with rfl | rfl <;> simp⟩
    deliver := by rcases hst with rfl | rfl <;> simp
    ack := by rcases hst with rfl | rfl <;> simp }

/-- RE begins to handle a frame of 1 to 80 payload bytes: a new one is delivered, a duplicate acknowledged again
(43_receiver.md R202). -/
theorem handles (h : ReInv re) (hs : re.state = .wait) {rlen rseq : Half} (h1 : 1 ≤ rlen.toNat)
    (h80 : rlen.toNat ≤ 80) (h4 : 4 ≤ re.rxn) {st : ReState}
    (hst : st = .deliver ∧ seqBit rseq = re.expected ∨ st = .ack ∧ seqBit rseq ≠ re.expected) :
    ReInv { re with rlen := rlen, rseq := rseq, state := st } := by
  have hc := mt h.cause.mpr (by simp [hs])
  obtain ⟨rfl, hq⟩ | ⟨rfl, hq⟩ := hst
  · exact { h with
      legal := by simp
      cause := iff_of_false (by simp) hc
      kept := ⟨h.kept.1, fun _ => h4⟩
      deliver := fun _ => ⟨h1, h80, hq⟩
      ack := by simp }
  · exact { h with
      legal := by simp
      cause := iff_of_false (by simp) hc
      kept := ⟨h.kept.1, by simp⟩
      deliver := by simp
      ack := fun _ => ⟨h1, h80, hq⟩ }

/-- The delivery toggles RE.EXPECTED, so the frame that is acknowledged now no longer has the expected bit (R203). -/
theorem delivers (h : ReInv re) (hs : re.state = .deliver) :
    ReInv { re with expected := re.expected ^^^ 1#1, state := .ack } := by
  obtain ⟨h1, h80, hq⟩ := h.deliver hs
  exact { h with
    legal := by simp
    cause := iff_of_false (by simp) (mt h.cause.mpr (by simp [hs]))
    kept := ⟨h.kept.1, by simp⟩
    deliver := by simp
    ack := fun _ => ⟨h1, h80, (bit_eq_iff_ne_flip _ _).mp hq⟩ }

/-- A session begins (45_host_commands.md R254). -/
theorem starts (h : ReInv re) : ReInv { re with
    accepted := 0#32, duplicates := 0#32, bytes := 0#32, ackTx := 0#32, ackDropped := 0#32
    expected := 0#1, cause := .none, sinkErr := false, state := .wait } :=
  { h with
    legal := by simp
    cause := by simp
    kept := ⟨h.kept.1, by simp⟩
    deliver := by simp
    ack := by simp }

/-- The configuration registers keep P at most `0x10000` and the LFSR from 0 (45_host_commands.md R258). -/
theorem configures {s : State} (h : ReInv s.re) (r : CfgReg) (v : Word) : ReInv (writeCfg r v s).re := by
  cases r <;> unfold writeCfg <;> dsimp only
  case sCfg => split <;> exact h
  case sLoss => split <;> exact h
  case sSeed => split <;> exact h
  case sIrq => exact h
  case rCfg => split; exacts [h, { h with }]
  case rLoss => split; exacts [h, { h with loss := clampLoss_le v }]
  case rSeed => split; exacts [h, { h with lfsr := seedLfsr_ne_zero _ }]
  case rIrq => exact { h with }

end ReInv

/-- A move of RE keeps its invariant. -/
theorem ReMove.keeps_reInv {s t : State} (m : ReMove s t) (h : ReInv s.re) : ReInv t.re := by
  cases m with
  | rxErr hs => exact h.faults (by decide)
  | malformed hs d => exact (h.loads hs d).faults (by decide)
  | ended hs d => exact (h.loads hs d).goes .done (by simp [hs]) (.inr rfl)
  | takesNew hs d q hq h4 h1 h80 hb => exact (h.loads hs d).handles hs h1 h80 h4 (.inl ⟨rfl, hb⟩)
  | takesDup hs d q hq h4 h1 h80 hb =>
    exact ((h.loads hs d).handles hs h1 h80 h4 (.inr ⟨rfl, hb⟩)).counts _ _ _ _ _ _
  | delivers hs r => exact (h.delivers hs).counts _ _ _ _ _ _
  | ackDropped hs u l smp hu =>
    exact ((h.samples (hu.lfsr_ne_zero h.lfsr)).goes .wait (by simp [hs]) (.inl rfl)).counts _ _ _ _ _ _
  | ackErr hs u l smp hu => exact (h.samples (hu.lfsr_ne_zero h.lfsr)).faults (by decide)
  | acked hs u l smp hu =>
    exact ((h.samples (hu.lfsr_ne_zero h.lfsr)).goes .wait (by simp [hs]) (.inl rfl)).counts _ _ _ _ _ _

/-! ### Every move, and every step -/

section
variable {s t : State}

theorem SeMove.keeps_inv (m : SeMove s t) (h : Inv s) : Inv t :=
  ⟨m.keeps_seInv h.1, m.keeps_rest.1 ▸ h.2⟩

theorem ReMove.keeps_inv (m : ReMove s t) (h : Inv s) : Inv t :=
  ⟨m.keeps_rest.1 ▸ h.1, m.keeps_reInv h.2⟩

theorem softResetSe_keeps_inv (h : Inv s) : Inv (softResetSe s) :=
  ⟨.atReset (freeBytes_length _ _) _, h.2⟩

theorem softResetRe_keeps_inv (h : Inv s) : Inv (softResetRe s) :=
  ⟨h.1, .atReset (freeBytes_length _ _) _ _⟩

theorem HostMove.keeps_inv (m : HostMove s t) (h : Inv s) : Inv t := by
  cases m with
  | inert => exact h
  | startsSe _ st hst => exact ⟨h.1.starts hst, h.2⟩
  | startsRe => exact ⟨h.1, h.2.starts⟩
  | resetsSe => exact softResetSe_keeps_inv h
  | resetsRe => exact softResetRe_keeps_inv h
  | configures r v => exact ⟨h.1.configures r v, h.2.configures r v⟩

theorem EnvMove.keeps_inv (m : EnvMove s t) (h : Inv s) : Inv t := by
  cases m with
  | loses c i => cases c <;> exact h
  | resets => exact softResetRe_keeps_inv (softResetSe_keeps_inv h)
  | empties => exact h
  | attaches => exact h

end

/-- Settles O48: a step makes one move in the state without its event, and each move keeps the invariant. -/
theorem stepKeepsInvariant : Obligations.StepKeepsInvariant := by
  intro s t h hstep
  have hp : Inv (popEvent s) := h
  obtain rfl | m | m | ⟨b, u, rfl, m⟩ | m := step_moves hstep
  · exact hp
  · exact m.keeps_inv hp
  · exact m.keeps_inv hp
  · exact m.keeps_inv hp
  · exact m.keeps_inv hp

end Sys2Proof.Machine
end

section
/-! PROOFS. The status, configuration and interrupt registers field by field (10_state.md R30, R34, R35, R40, R44, R45). Each
word is a concatenation of its fields; a field is read back by skipping what stands below it. -/

namespace Sys2Proof.Machine

open BitVec (extractLsb'_append_eq_of_le extractLsb'_append_eq_left extractLsb'_append_eq_right)

/-! ### No two states and no two causes share a code (R22, R23, 60_exceptions.md R281) -/

theorem seCode_inj {a b : SeState} : seCode a = seCode b ↔ a = b := by
  cases a <;> cases b <;> decide

theorem reCode_inj {a b : ReState} : reCode a = reCode b ↔ a = b := by
  cases a <;> cases b <;> decide

theorem causeCode_inj {a b : Cause} : causeCode a = causeCode b ↔ a = b := by
  cases a <;> cases b <;> decide

/-! ### The fields of a status word: a state code, a bit, a cause code, and what stands above them (R34, R44) -/

section
variable {n : Nat} (x : BitVec n) (c : BitVec 4) (q : Bit) (k : BitVec 3)

theorem status_state : (x ++ c ++ q ++ k).extractLsb' 0 3 = k := extractLsb'_append_eq_right

theorem status_bit : (x ++ c ++ q ++ k).extractLsb' 3 1 = q :=
  (extractLsb'_append_eq_of_le (by decide)).trans extractLsb'_append_eq_right

theorem status_cause : (x ++ c ++ q ++ k).extractLsb' 4 4 = c :=
  (extractLsb'_append_eq_of_le (by decide)).trans <|
    (extractLsb'_append_eq_of_le (by decide)).trans extractLsb'_append_eq_right

theorem status_above (i m : Nat) : (x ++ c ++ q ++ k).extractLsb' (i + 8) m = x.extractLsb' i m := by
  rw [extractLsb'_append_eq_of_le (by omega), extractLsb'_append_eq_of_le (by omega),
    extractLsb'_append_eq_of_le (by omega), show i + 8 - 3 - 1 - 4 = i by omega]

end

/-- Every bit of an IRQ register (R35, R45). -/
theorem irqWord_getLsbD (doneIe faultIe doneIp faultIp : Bool) (n : Nat) :
    (irqWord doneIe faultIe doneIp faultIp).getLsbD n =
      ((decide (n = 0) && doneIe) || (decide (n = 1) && faultIe) || (decide (n = 8) && doneIp) ||
        (decide (n = 9) && faultIp)) := by
  simp only [irqWord, BitVec.getLsbD_append, BitVec.getLsbD_ofBool, BitVec.getLsbD_zero]
  by_cases h : n < 10
  · interval_cases n <;> simp
  · have h0 : n ≠ 0 ∧ n ≠ 1 ∧ n ≠ 8 ∧ n ≠ 9 := by omega
    rw [if_neg (by omega), if_neg (by omega), if_neg (by omega), if_neg (by omega), if_neg (by omega)]
    simp [h0]

/-- Settles O15: each register is the concatenation of its fields, and the codes are injective. -/
theorem statusAndConfigurationFields : Obligations.StatusAndConfigurationFields := by
  intro s
  have hs : readAt s 0x010 = 0#24 ++ causeCode s.se.cause ++ s.se.seq ++ seCode s.se.state := rfl
  have hr : readAt s 0x090 =
      (0#23 ++ BitVec.ofBool s.re.sinkErr) ++ causeCode s.re.cause ++ s.re.expected ++ reCode s.re.state := rfl
  have hsc : readAt s 0x004 =
      0#26 ++ BitVec.ofBool s.se.sampleExt ++ BitVec.ofBool s.se.srcMissing ++ s.se.toExp := rfl
  have hrc : readAt s 0x084 = (BitVec.ofBool s.re.sampleExt).setWidth 32 := rfl
  refine ⟨⟨fun p hp => ?_, ?_, fun p hp => ?_, ?_⟩, ⟨fun p hp => ?_, ?_, fun p hp => ?_, ?_, ?_⟩, ⟨?_, ?_, ?_, ?_⟩, ?_, ?_⟩
  · have hk : seCode p.1 = p.2 := by revert p; decide
    rw [hs, status_state, ← hk, seCode_inj]
  · rw [hs, status_bit]
  · have hk : causeCode p.1 = p.2 := by revert p; decide
    rw [hs, status_cause, ← hk, causeCode_inj]
  · rw [hs, status_above _ _ _ _ 0]; rfl
  · have hk : reCode p.1 = p.2 := by revert p; decide
    rw [hr, status_state, ← hk, reCode_inj]
  · rw [hr, status_bit]
  · have hk : causeCode p.1 = p.2 := by revert p; decide
    rw [hr, status_cause, ← hk, causeCode_inj]
  · rw [hr, status_above _ _ _ _ 0]; exact extractLsb'_append_eq_right
  · rw [hr, status_above _ _ _ _ 1]; exact extractLsb'_append_eq_left
  · rw [hsc]; exact extractLsb'_append_eq_right
  · rw [hsc]; simp only [BitVec.getLsbD_append, BitVec.getLsbD_ofBool]; simp
  · rw [hsc]; simp only [BitVec.getLsbD_append, BitVec.getLsbD_ofBool]; simp
  · rw [hsc, extractLsb'_append_eq_of_le (by decide), extractLsb'_append_eq_of_le (by decide)]
    exact extractLsb'_append_eq_left
  · rw [hrc]; cases s.re.sampleExt <;> rfl
  · rw [hrc]; cases s.re.sampleExt <;> rfl

/-- Settles O16: the bits of an IRQ register decide all clauses, since a state is not both DONE and FAULT. -/
theorem interruptFlags : Obligations.InterruptFlags := by
  intro s
  have hs : readAt s 0x014 = irqWord s.se.doneIe s.se.faultIe (seDoneIp s.se) (seFaultIp s.se) := rfl
  have hr : readAt s 0x094 = irqWord s.re.doneIe s.re.faultIe (reDoneIp s.re) (reFaultIp s.re) := rfl
  refine ⟨fun n => ?_, fun n => ?_, ?_, ?_, ?_, ?_⟩
  · rw [hs, irqWord_getLsbD, seDoneIp, seFaultIp, Bool.decide_and, Bool.decide_and]
  · rw [hr, irqWord_getLsbD, reDoneIp, reFaultIp, Bool.decide_and, Bool.decide_and]
  · simp [irqS, seDoneIp, seFaultIp]
  · simp [irqR, reDoneIp, reFaultIp]
  · rw [hs, irqWord_getLsbD, irqWord_getLsbD]
    cases h : s.se.state <;> simp [seDoneIp, seFaultIp, h]
  · rw [hr, irqWord_getLsbD, irqWord_getLsbD]
    cases h : s.re.state <;> simp [reDoneIp, reFaultIp, h]

end Sys2Proof.Machine
end

section
/-! PROOFS. The channels (20_memory.md R68, R69): what a delivery leaves, what the environment does to them, and what one step
takes from a channel and puts into it. -/

namespace Sys2Proof.Machine

/-! ### Deliveries -/

/-- A delivery is made exactly where the mode allows it of an element that is there; the element is left or removed. -/
theorem deliverAt_eq_some_iff {m : ChannelMode} {q : List Datagram} {i : Nat} {keep : Bool} {d : Datagram}
    {q' : List Datagram} : deliverAt m q i keep = some (d, q') ↔
      channelAllows m i keep = true ∧ q[i]? = some d ∧ q' = if keep then q else q.eraseIdx i := by
  refine ⟨deliverAt_some, ?_⟩
  rintro ⟨ha, hd, rfl⟩
  simp only [deliverAt, ha, hd, if_true]

theorem deliverThis_eq_some_iff {m : ChannelMode} {q : List Datagram} {d : Datagram} {keep : Bool} {q' : List Datagram} :
    deliverThis m q d keep = some q' ↔ deliverAt m q (q.idxOf d) keep = some (d, q') :=
  ⟨deliverThis_some, fun h => by simp only [deliverThis, h]⟩

/-- The head is removed from a sequence that begins with it. -/
theorem head_removed_iff {q : List Datagram} {d : Datagram} {q' : List Datagram} :
    q[0]? = some d ∧ q' = q.eraseIdx 0 ↔ q = d :: q' := by
  cases q with
  | nil => simp
  | cons a q => simp [eq_comm]

/-- Settles O24: each mode allows its own indices, and what is left follows from `keep`. -/
theorem channelDelivers : Obligations.ChannelDelivers := by
  intro q i keep d q'
  refine ⟨?_, ?_, ?_, fun m => deliverThis_eq_some_iff⟩
  · rw [deliverAt_eq_some_iff, ← head_removed_iff]
    cases keep <;> simp +contextual [channelAllows]
  · rw [deliverAt_eq_some_iff, ← head_removed_iff, List.head?_eq_getElem?]
    cases keep <;> simp +contextual [channelAllows, and_comm]
  · rw [deliverAt_eq_some_iff]
    cases keep <;> simp [channelAllows]

/-! ### The moves of the environment -/

theorem loseAt_eq (m : ChannelMode) (q : List Datagram) (i : Nat) :
    loseAt m q i = if m = .fifoReliable then q else q.eraseIdx i := by
  cases m <;> rfl

/-- A deletion forges nothing and grows nothing. -/
theorem loseAt_sublist (m : ChannelMode) (q : List Datagram) (i : Nat) : (loseAt m q i).Sublist q := by
  rw [loseAt_eq]
  split
  · exact .refl q
  · exact q.eraseIdx_sublist i

/-- A move `f` of the environment is made in the state without its event. -/
theorem step_of_fetch_moved {s : State} {e : Event} {rest : List Event} {f : State → State} (hs : s.script = e :: rest)
    (hf : fetch s = .moved (f (popEvent s))) : step s = .next (f { s with script := rest }) := by
  rw [← popEvent_of_script hs, step, hf]

section
variable {s t : State}

/-- A write to a configuration register does not reach the environment. -/
theorem writeCfg_environment (r : CfgReg) (v : Word) (s : State) :
    (writeCfg r v s).chd = s.chd ∧ (writeCfg r v s).cha = s.cha ∧ (writeCfg r v s).script = s.script ∧
      (writeCfg r v s).params = s.params := by
  cases r
  case sIrq => exact ⟨rfl, rfl, rfl, rfl⟩
  case rIrq => exact ⟨rfl, rfl, rfl, rfl⟩
  all_goals
    unfold writeCfg
    dsimp only
    split <;> exact ⟨rfl, rfl, rfl, rfl⟩

/-- The HOST reaches the channels, the script and the parameters by no access (45_host_commands.md R250). -/
theorem HostMove.keeps_environment (m : HostMove s t) :
    t.chd = s.chd ∧ t.cha = s.cha ∧ t.script = s.script ∧ t.params = s.params := by
  cases m with
  | configures r v => exact writeCfg_environment r v s
  | _ => exact ⟨rfl, rfl, rfl, rfl⟩

theorem EnvMove.keeps_script_params (m : EnvMove s t) : t.script = s.script ∧ t.params = s.params := by
  cases m with
  | loses c i => cases c <;> exact ⟨rfl, rfl⟩
  | _ => exact ⟨rfl, rfl⟩

/-- A step only takes the first event off the script, and no step writes the OPEN parameters. -/
theorem step_params_script (h : step s = .next t) : t.params = s.params ∧ t.script = s.script.tail := by
  obtain rfl | m | m | ⟨b, u, rfl, m⟩ | m := step_moves h
  · exact ⟨rfl, rfl⟩
  · obtain ⟨-, -, -, -, -, hscript, hparams⟩ := m.keeps_rest
    exact ⟨hparams, hscript⟩
  · obtain ⟨-, -, hscript, hparams⟩ := m.keeps_rest
    exact ⟨hparams, hscript⟩
  · obtain ⟨-, -, hscript, hparams⟩ := m.keeps_environment
    exact ⟨hparams, hscript⟩
  · exact m.keeps_script_params.symm

end

/-- Settles O26: each event is the move of its name, and no move writes the script or the parameters. -/
theorem environmentMoves : Obligations.EnvironmentMoves := by
  refine ⟨fun s rest i => ⟨fun hs => ?_, fun hs => ?_, fun hs => ?_, fun hs => ?_⟩, fun s t => step_params_script⟩
  · rw [← loseAt_eq]
    exact step_of_fetch_moved (f := loseMove .chd i) hs (by rw [fetch, hs])
  · rw [← loseAt_eq]
    exact step_of_fetch_moved (f := loseMove .cha i) hs (by rw [fetch, hs])
  · exact step_of_fetch_moved (f := emptyChannelsMove) hs (by rw [fetch, hs])
  · exact step_of_fetch_moved (f := freshSinkMove) hs (by rw [fetch, hs])

/-! ### What a step puts into a channel -/

/-- `f` is the frame that SE sends in the step from `s` to `t` (42_sender.md R165, R168, R169). -/
def SeSends (s t : State) (f : Datagram) : Prop :=
  (s.se.state = .send ∧ t.se.state = .wait ∧ f = txFrame s.se) ∨
  (s.se.state = .eot ∧ t.se.state = .done ∧ f = encodeEot s.se.seq) ∨
  (s.se.state = .notFound ∧ t.se.state = .eot ∧ f = noticeFrame s)

/-- `a` is the ACK that RE sends in the step from `s` to `t` (43_receiver.md R204). -/
def ReSends (s t : State) (a : Datagram) : Prop := s.re.state = .ack ∧ t.re.state = .wait ∧ a = encodeAck s.re.rseq

/-- The channel goes from `Q` to `Q'`: what is new was sent, and it is one datagram at most. -/
structure ChannelStep (sends : Datagram → Prop) (Q Q' : List Datagram) : Prop where
  mem : ∀ d ∈ Q', d ∈ Q ∨ sends d
  length : Q'.length ≤ Q.length + 1

section
variable {sends : Datagram → Prop} {Q Q' : List Datagram}

namespace ChannelStep

theorem same : ChannelStep sends Q Q := ⟨fun _ => .inl, Nat.le_succ _⟩

theorem of_eq (h : Q' = Q) : ChannelStep sends Q Q' := h ▸ same

theorem of_taken {d : Datagram} (h : Taken d Q' Q) : ChannelStep sends Q Q' :=
  ⟨fun a ha => .inl (h.2.1 a ha), h.2.2.trans (Nat.le_succ _)⟩

theorem of_sublist (h : Q'.Sublist Q) : ChannelStep sends Q Q' :=
  ⟨fun _ ha => .inl (h.subset ha), h.length_le.trans (Nat.le_succ _)⟩

theorem of_sent {d : Datagram} (h : sends d) : ChannelStep sends Q (Q ++ [d]) where
  mem a ha := (List.mem_append.mp ha).imp_right fun hd => by rwa [List.mem_singleton.mp hd]
  length := by simp

/-- What holds of every datagram in the channel and of what is sent holds after the step. -/
theorem all {P : Datagram → Prop} (h : ChannelStep sends Q Q') (hQ : ∀ d ∈ Q, P d) (hs : ∀ d, sends d → P d) :
    ∀ d ∈ Q', P d :=
  fun d hd => (h.mem d hd).elim (hQ d) (hs d)

end ChannelStep

end

section
variable {s t : State}

theorem SeMove.channelSteps (m : SeMove s t) :
    ChannelStep (SeSends s t) s.chd t.chd ∧ ChannelStep (ReSends s t) s.cha t.cha := by
  cases m with
  | sent h => exact ⟨.of_sent (.inl ⟨h, rfl, rfl⟩), .same⟩
  | eotSent h => exact ⟨.of_sent (.inr (.inl ⟨h, rfl, rfl⟩)), .same⟩
  | noticeSent h => exact ⟨.of_sent (.inr (.inr ⟨h, rfl, rfl⟩)), .same⟩
  | badAck h d q hq => exact ⟨.same, .of_taken hq⟩
  | ackHit h d q hq => exact ⟨.same, .of_taken hq⟩
  | ackMiss h d q hq => exact ⟨.same, .of_taken hq⟩
  | _ => exact ⟨.same, .same⟩

theorem ReMove.channelSteps (m : ReMove s t) :
    ChannelStep (SeSends s t) s.chd t.chd ∧ ChannelStep (ReSends s t) s.cha t.cha := by
  cases m with
  | malformed h d q hq => exact ⟨.of_taken hq, .same⟩
  | ended h d q hq => exact ⟨.of_taken hq, .same⟩
  | takesNew h d q hq => exact ⟨.of_taken hq, .same⟩
  | takesDup h d q hq => exact ⟨.of_taken hq, .same⟩
  | acked h => exact ⟨.same, .of_sent ⟨h, rfl, rfl⟩⟩
  | delivers h r => exact ⟨.of_eq (sinkWrite_chd _ r _), .of_eq (sinkWrite_cha _ r _)⟩
  | _ => exact ⟨.same, .same⟩

theorem EnvMove.channels_sublist (m : EnvMove s t) : t.chd.Sublist s.chd ∧ t.cha.Sublist s.cha := by
  cases m with
  | loses c i =>
    cases c
    · exact ⟨loseAt_sublist _ _ i, .refl _⟩
    · exact ⟨.refl _, loseAt_sublist _ _ i⟩
  | empties => exact ⟨List.nil_sublist _, List.nil_sublist _⟩
  | _ => exact ⟨.refl _, .refl _⟩

/-- A step takes from a channel, deletes from it, or puts into it the one datagram that an engine sends. -/
theorem step_channelSteps (h : step s = .next t) :
    ChannelStep (SeSends s t) s.chd t.chd ∧ ChannelStep (ReSends s t) s.cha t.cha := by
  obtain rfl | m | m | ⟨b, u, rfl, m⟩ | m := step_moves h
  · exact ⟨.same, .same⟩
  · exact m.channelSteps
  · exact m.channelSteps
  · obtain ⟨hchd, hcha, -, -⟩ := m.keeps_environment
    exact ⟨.of_eq hchd, .of_eq hcha⟩
  · exact m.channels_sublist.imp .of_sublist .of_sublist

end

/-- The four bytes of an EOT frame (40_codec.md R121). -/
theorem encodeEot_eq (q : Bit) : encodeEot q = [0#8, 0#8, 0#8, q.setWidth 8] := by
  revert q; decide

/-- Settles O25: what is new in a channel after a step is what an engine sent, the frames written out. -/
theorem channelsForgeNothing : Obligations.ChannelsForgeNothing := by
  intro s t h
  obtain ⟨hchd, hcha⟩ := step_channelSteps h
  refine ⟨fun f hf => (hchd.mem f hf).imp_right ?_, hcha.mem, hchd.length, hcha.length⟩
  rw [← encodeEot_eq]
  exact id

end Sys2Proof.Machine
end

section
/-! PROOFS. Only own traffic on the wire (20_memory.md R68, 60_exceptions.md R282): what the engines send is well formed, so
neither engine takes a malformed datagram, and RE takes no truncated frame. -/

namespace Sys2Proof.Machine

/-- Under its invariant SE sends data and EOT frames only; the notice is a data frame (30_encoding.md R92, R93, R95). -/
theorem SeSends.isSentFrame {s t : State} {f : Datagram} (h : SeSends s t f) (hs : SeInv s.se) : IsSentFrame f := by
  obtain ⟨hst, -, rfl⟩ | ⟨-, -, rfl⟩ | ⟨-, -, rfl⟩ := h
  · obtain ⟨p, -, h80, hf⟩ := hs.frame (.inl hst)
    exact ⟨_, p, h80, hf⟩
  · exact ⟨_, [], Nat.zero_le _, rfl⟩
  · exact ⟨_, _, s.params.notFoundMsg.short, rfl⟩

theorem step_keeps_wireInv {s t : State} (hi : Inv s) (hw : WireInv s) (h : step s = .next t) : WireInv t := by
  obtain ⟨hchd, hcha⟩ := step_channelSteps h
  refine ⟨hchd.all hw.1 fun f hf => hf.isSentFrame hi.1, hcha.all hw.2 ?_⟩
  rintro a ⟨-, -, rfl⟩
  exact be16_length _

namespace IsSentFrame
variable {f : Datagram}

/-- A frame that SE sent fits RE's buffer, and brings all the bytes that its header declares. -/
theorem kept_length (h : IsSentFrame f) : (rxKept f).length = 4 + lenField (rxKept f) ∧ lenField (rxKept f) ≤ 80 := by
  obtain ⟨q, p, h80, rfl⟩ := h
  rw [rxKept_eq (by rw [frameBytes_length]; omega), lenField_frameBytes q h80, frameBytes_length]
  exact ⟨rfl, h80⟩

/-- So RE meets neither a short nor an overlong frame (R98). -/
theorem not_malformed (h : IsSentFrame f) (e : Bit) :
    ¬ (frameClass e (rxKept f) = .short ∨ frameClass e (rxKept f) = .overlong) := by
  obtain ⟨hlen, h80⟩ := h.kept_length
  unfold frameClass
  rw [if_neg (by simp only [hdrBytes]; omega), if_neg (c := _ ∧ _) (by simp only [maxPayload]; omega)]
  split
  · simp
  · split <;> simp

end IsSentFrame

section
variable {s t : State}

theorem SeMove.keeps_noMalformed (m : SeMove s t) (hw : WireInv s) (h : NoMalformed s) : NoMalformed t := by
  obtain ⟨hack, hre⟩ := h
  cases m with
  | badAck hs d q hq hd => exact absurd (hw.2 d hq.1) hd
  | oversize => exact ⟨by simp, hre⟩
  | sendErr => exact ⟨by simp, hre⟩
  | rxErr => exact ⟨by simp, hre⟩
  | eotErr => exact ⟨by simp, hre⟩
  | noticeErr => exact ⟨by simp, hre⟩
  | ticks k =>
    obtain ⟨tmr, texp, he⟩ := tickMany_frame s.params.zeroTimeout k s.se
    rw [he]
    exact ⟨hack, hre⟩
  | _ => exact ⟨hack, hre⟩

theorem ReMove.keeps_noMalformed (m : ReMove s t) (hw : WireInv s) (h : NoMalformed s) : NoMalformed t := by
  obtain ⟨hack, hframe, hwhole⟩ := h
  cases m with
  | malformed hs d q hq hc => exact absurd hc ((hw.1 d hq.1).not_malformed _)
  | takesNew hs d q hq => exact ⟨hack, hframe, fun _ => (hw.1 d hq.1).kept_length.1.ge⟩
  | rxErr => exact ⟨hack, by simp, by simp⟩
  | ackErr => exact ⟨hack, by simp, by simp⟩
  | delivers hs r => exact ⟨by simpa using hack, hframe, by simp⟩
  | _ => exact ⟨hack, hframe, by simp⟩

/-- A write to a configuration register leaves the state registers, the causes and the frame being handled. -/
theorem writeCfg_keeps_noMalformed (r : CfgReg) (v : Word) (h : NoMalformed s) : NoMalformed (writeCfg r v s) := by
  cases r
  case sIrq => exact h
  case rIrq => exact h
  all_goals
    unfold writeCfg
    dsimp only
    split <;> exact h

theorem HostMove.keeps_noMalformed (m : HostMove s t) (h : NoMalformed s) : NoMalformed t := by
  obtain ⟨hack, hre⟩ := h
  cases m with
  | inert => exact ⟨hack, hre⟩
  | startsSe => exact ⟨by simp, hre⟩
  | startsRe => exact ⟨hack, by simp, by simp⟩
  | resetsSe => exact ⟨by simp [Sender.atReset], hre⟩
  | resetsRe => exact ⟨hack, by simp [Receiver.atReset], by simp [Receiver.atReset]⟩
  | configures r v => exact writeCfg_keeps_noMalformed r v ⟨hack, hre⟩

theorem EnvMove.keeps_noMalformed (m : EnvMove s t) (h : NoMalformed s) : NoMalformed t := by
  cases m with
  | loses c i => cases c <;> exact h
  | resets => exact (HostMove.resetsRe).keeps_noMalformed ((HostMove.resetsSe).keeps_noMalformed h)
  | empties => exact h
  | attaches => exact h

end

/-- Settles O49: the channels hold own traffic after the step, and an engine that takes own traffic meets nothing malformed
and nothing truncated. -/
theorem ownTrafficIsNeverMalformed : Obligations.OwnTrafficIsNeverMalformed := by
  intro s t hi hw hn h
  refine ⟨step_keeps_wireInv hi hw h, ?_⟩
  obtain rfl | m | m | ⟨b, u, rfl, m⟩ | m := step_moves h
  · exact hn
  · exact m.keeps_noMalformed hw hn
  · exact m.keeps_noMalformed hw hn
  · exact m.keeps_noMalformed hn
  · exact m.keeps_noMalformed hn

end Sys2Proof.Machine
end

section
/-! PROOFS. Rows of another message wait (00_scope.md R12, 30_encoding.md R98, R99): a row whose datagram the channel does not
deliver, or whose class or message is not the one at hand, leaves the machine as it is. -/

namespace Sys2Proof.Machine

/-! ### What a class says of its datagram -/

/-- The condition of a frame class (R98) on the datagram `d`. A length field above 80 is always more than what stands behind
the header of the at most 84 bytes that RE keeps (20_memory.md R70). -/
def InFrameClass (expected : Bit) (d : Datagram) : FrameClass → Prop
  | .short => d.length < 4
  | .eot => 4 ≤ d.length ∧ lenField (rxKept d) = 0
  | .overlong => 4 ≤ d.length ∧ 80 < lenField (rxKept d)
  | .dataMatch => 4 ≤ d.length ∧ 1 ≤ lenField (rxKept d) ∧ lenField (rxKept d) ≤ 80 ∧
      seqBit (seqField (rxKept d)) = expected
  | .dataDup => 4 ≤ d.length ∧ 1 ≤ lenField (rxKept d) ∧ lenField (rxKept d) ≤ 80 ∧
      seqBit (seqField (rxKept d)) ≠ expected

theorem frameClass_spec (e : Bit) (d : Datagram) : InFrameClass e d (frameClass e (rxKept d)) := by
  have hlen := rxKept_length d
  have hshort : (rxKept d).length < hdrBytes ↔ d.length < 4 := by simp only [hdrBytes]; omega
  unfold frameClass
  split
  case isTrue h => exact hshort.mp h
  case isFalse h =>
    have h4 : 4 ≤ d.length := Nat.not_lt.mp (mt hshort.mpr h)
    split
    case isTrue hz => exact ⟨h4, hz⟩
    case isFalse hz =>
      split
      case isTrue ho => exact ⟨h4, ho.1⟩
      case isFalse ho =>
        have h80 : lenField (rxKept d) ≤ 80 := by simp only [maxPayload, hdrBytes] at ho; omega
        split
        case isTrue hs => exact ⟨h4, by omega, h80, hs⟩
        case isFalse hs => exact ⟨h4, by omega, h80, hs⟩

/-- Rule R202 handles exactly the frames with a payload of 1 to 80 bytes. -/
theorem isDataClass_iff (e : Bit) (d : Datagram) :
    isDataClass (frameClass e (rxKept d)) = true ↔ 4 ≤ d.length ∧ 1 ≤ lenField (rxKept d) ∧ lenField (rxKept d) ≤ 80 := by
  have h := frameClass_spec e d
  generalize frameClass e (rxKept d) = k at h
  cases k <;> simp only [InFrameClass] at h <;> simp only [isDataClass, reduceCtorEq, true_iff, false_iff] <;> omega

/-- The condition of an ACK class (R99): a match is the one ACK of `zext_16(SE.SEQ)`. -/
def InAckClass (seq : Bit) (d : Datagram) : AckClass → Prop
  | .malformed => d.length ≠ 2
  | .hit => d = be16 (seq.setWidth 16)
  | .mismatch => d.length = 2 ∧ d ≠ be16 (seq.setWidth 16)

theorem ackClass_spec (q : Bit) (d : Datagram) : InAckClass q d (ackClass q d) := by
  unfold ackClass
  split
  case isTrue h => exact h
  case isFalse h =>
    have h2 : d.length = 2 := Decidable.not_not.mp h
    split
    case isTrue hq => exact (be16_be16At h2).symm.trans (congrArg be16 hq)
    case isFalse hq => exact ⟨h2, fun hd => hq (by rw [hd, be16At_be16_alone])⟩

/-! ### Nothing is taken -/

/-- A row whose meaning leaves the state as it is waits. -/
theorem next_eq_of_eq {s t : State} (h : t = s) : (.next t : Host.Outcome State Fault Refusal) = .next s := congrArg _ h

theorem deliverThis_of_not_mem {q : List Datagram} {d : Datagram} (h : d ∉ q) (m : ChannelMode) (keep : Bool) :
    deliverThis m q d keep = none := by
  refine Option.eq_none_iff_forall_ne_some.mpr fun q' hq => h ?_
  exact (taken_of_deliverAt (deliverThis_some hq)).1

section
variable {s : State} {d : Datagram} {keep : Bool} {i : Nat} {q : List Datagram}

theorem reTakeClass_of_not_delivered (k : FrameClass)
    (h : d ∉ s.chd ∨ deliverThis s.params.channelMode s.chd d keep = none) : reTakeClass k d keep s = s := by
  have hn : deliverThis s.params.channelMode s.chd d keep = none := h.elim (deliverThis_of_not_mem · _ _) id
  simp only [reTakeClass, hn, ite_self]

theorem seTakeClass_of_not_delivered (k : AckClass)
    (h : d ∉ s.cha ∨ deliverThis s.params.channelMode s.cha d keep = none) : seTakeClass k d keep s = s := by
  have hn : deliverThis s.params.channelMode s.cha d keep = none := h.elim (deliverThis_of_not_mem · _ _) id
  simp only [seTakeClass, hn, ite_self]

theorem reTakeClass_of_other_class {k : FrameClass} (h : ¬ InFrameClass s.re.expected d k) : reTakeClass k d keep s = s :=
  if_neg fun ⟨_, hk⟩ => h (hk ▸ frameClass_spec s.re.expected d)

theorem seTakeClass_of_other_class {k : AckClass} (h : ¬ InAckClass s.se.seq d k) : seTakeClass k d keep s = s :=
  if_neg fun ⟨_, hk⟩ => h (hk ▸ ackClass_spec s.se.seq d)

theorem reRecv_of_not_delivered (data : Bool) (h : deliverAt s.params.channelMode s.chd i keep = none) :
    reRecv data (.dgram i keep) s = s := by
  simp only [reRecv, h, ite_self]

theorem seRecv_of_not_delivered (h : deliverAt s.params.channelMode s.cha i keep = none) :
    seRecv (.dgram i keep) s = s := by
  simp only [seRecv, h, ite_self]

theorem reRecv_of_other_class {data : Bool} (h : deliverAt s.params.channelMode s.chd i keep = some (d, q))
    (hc : isDataClass (frameClass s.re.expected (rxKept d)) ≠ data) : reRecv data (.dgram i keep) s = s := by
  simp only [reRecv, h, if_neg hc, ite_self]

end

/-! ### Nothing is emitted -/

/-- A gate that is offered no sample, or drops the message, draws no sample that lets it through (41_loss_gate.md R144). -/
theorem gate_stops {ext : Bool} {lfsr : Half} {smp : Option Half} {p : BitVec 17} {u l : Half}
    (h : (ext = true ∧ smp = none) ∨ (SampleIs ext lfsr smp u l ∧ u.toNat < p.toNat)) :
    ¬ ∃ u' l', drawSample ext lfsr smp = some (u', l') ∧ p.toNat ≤ u'.toNat := by
  rintro ⟨u', l', hd, hle⟩
  obtain ⟨rfl, rfl⟩ | ⟨hs, hlt⟩ := h
  · cases hd
  · rw [drawSample_of hs] at hd
    cases hd
    omega

section
variable {s : State} {smp : Option Half}

theorem emitsData_true {seq : Bit} {p : List Byte} (h : emitsData seq p smp s = true) :
    txFrame s.se = frameBytes seq p ∧
      ∃ u l, drawSample s.se.sampleExt s.se.lfsr smp = some (u, l) ∧ s.se.lossP.toNat ≤ u.toNat := by
  rw [emitsData, Bool.and_eq_true, decide_eq_true_eq, seSample] at h
  obtain ⟨⟨-, hf⟩, hg⟩ := h
  refine ⟨hf, ?_⟩
  cases hd : drawSample s.se.sampleExt s.se.lfsr smp with
  | none => simp [hd] at hg
  | some ul => exact ⟨ul.1, ul.2, rfl, by simpa [hd, shouldDrop] using hg⟩

theorem emitsAck_true {a : Half} (h : emitsAck a smp s = true) :
    s.re.rseq = a ∧ ∃ u l, drawSample s.re.sampleExt s.re.lfsr smp = some (u, l) ∧ s.re.lossP.toNat ≤ u.toNat := by
  rw [emitsAck, Bool.and_eq_true, decide_eq_true_eq, reSample] at h
  obtain ⟨⟨-, ha⟩, hg⟩ := h
  refine ⟨ha, ?_⟩
  cases hd : drawSample s.re.sampleExt s.re.lfsr smp with
  | none => simp [hd] at hg
  | some ul => exact ⟨ul.1, ul.2, rfl, by simpa [hd, shouldDrop] using hg⟩

theorem exec_txData_waits {seq : Bit} {p : List Byte} (r : Resp) (h : ¬ emitsData seq p smp s = true) :
    exec (.txData seq p smp r) s = .next s :=
  next_eq_of_eq (if_neg h)

theorem exec_txAck_waits {a : Half} (r : Resp) (h : ¬ emitsAck a smp s = true) : exec (.txAck a smp r) s = .next s :=
  next_eq_of_eq (if_neg h)

theorem exec_txNotfound_waits {len : Half} (r : Resp)
    (h : ¬ (s.params.notFoundMsg.bytes.length = len.toNat ∧ s.se.seq = 0#1)) : exec (.txNotfound len r) s = .next s :=
  next_eq_of_eq (if_neg h)

end

/-- Settles O44: a row takes only what the channel delivers and what is in its class, and emits only the machine's own
message past the gate; where it may not, it waits. -/
theorem rowsOfAnotherMessageWait : Obligations.RowsOfAnotherMessageWait := by
  intro s d keep seq p a len u l smp r i q
  have hb : d.take 84 = rxKept d := rfl
  have hq : (seqField (rxKept d)).extractLsb' 0 1 = seqBit (seqField (rxKept d)) := rfl
  simp only [hb, hq]
  refine ⟨fun h => ?_, ⟨fun h => ?_, fun h => ?_, fun h => ?_, fun h => ?_, fun h => ?_, fun h => ⟨fun hc => ?_, fun hc => ?_⟩⟩,
    fun h => ?_, fun h => ?_, fun h => ?_, fun h => ?_, fun h => ?_, fun h => ?_, fun h => ?_, fun h => ?_, fun h => ?_⟩
  · have wait (k : FrameClass) := next_eq_of_eq (reTakeClass_of_not_delivered k h)
    exact ⟨wait _, wait _, wait _, wait _, wait _⟩
  · exact next_eq_of_eq (reTakeClass_of_other_class (k := .short) (Nat.not_lt.mpr h))
  · exact next_eq_of_eq <| reTakeClass_of_other_class (k := .eot) fun ⟨h4, hz⟩ => by omega
  · exact next_eq_of_eq <| reTakeClass_of_other_class (k := .overlong) fun ⟨h4, ho⟩ => by omega
  · exact next_eq_of_eq <| reTakeClass_of_other_class (k := .dataMatch) fun ⟨h4, h1, h80, hs⟩ => by
      simp only [hs, ne_eq, not_true, or_false] at h; omega
  · exact next_eq_of_eq <| reTakeClass_of_other_class (k := .dataDup) fun ⟨h4, h1, h80, hs⟩ => by
      simp only [hs, or_false] at h; omega
  · exact next_eq_of_eq (reRecv_of_other_class h (by simp [isDataClass_iff, hc]))
  · exact next_eq_of_eq (reRecv_of_other_class h (by rw [ne_eq, isDataClass_iff]; omega))
  · have wait (k : AckClass) := next_eq_of_eq (seTakeClass_of_not_delivered k h)
    exact ⟨wait _, wait _, wait _⟩
  · exact next_eq_of_eq (seTakeClass_of_other_class (k := .malformed) (not_not_intro h))
  · exact next_eq_of_eq (seTakeClass_of_other_class (k := .hit) h)
  · exact next_eq_of_eq <| seTakeClass_of_other_class (k := .mismatch) fun ⟨h2, hne⟩ => h.elim (· h2) hne
  · have wait (data : Bool) := next_eq_of_eq (reRecv_of_not_delivered data h)
    exact ⟨wait _, wait _⟩
  · exact next_eq_of_eq (seRecv_of_not_delivered h)
  · refine exec_txData_waits r fun he => ?_
    obtain ⟨hf, hg⟩ := emitsData_true he
    exact h.elim (· hf) (gate_stops · hg)
  · exact exec_txNotfound_waits r (not_and_or.mpr h)
  · refine exec_txAck_waits r fun he => ?_
    obtain ⟨ha, hg⟩ := emitsAck_true he
    exact h.elim (· ha) (gate_stops · hg)

end Sys2Proof.Machine
end

section
/-! PROOFS. Accesses that are not admitted (20_memory.md R62; logs 9, 10 and 24). -/

namespace Sys2Proof.Machine

/-- Another width, another alignment, or an offset outside the window. -/
theorem admitted_eq_false {off : Word} {w : Width} (h : w ≠ .b4 ∨ off.toNat % 4 ≠ 0 ∨ 256 ≤ off.toNat) :
    admitted off w = false := by
  refine decide_eq_false ?_
  rintro ⟨hw, ha, hi⟩
  obtain h | h | h := h
  · exact h hw
  · exact h ha
  · exact absurd hi (Nat.not_lt.mpr h)

theorem decode_csrRead (c : DecodeCtx) (addr : Word) (w : Width) :
    decode c (.csrRead addr w) [] = .ok (.csrRead (addr - c.csrBase) w) := rfl

theorem decode_csrWrite (c : DecodeCtx) (addr : Word) (w : Width) (v : Word) :
    decode c (.csrWrite addr w) (be32 v) = .ok (decodeWrite (addr - c.csrBase) w v) :=
  congrArg (fun x => Except.ok (decodeWrite (addr - c.csrBase) w x)) (be32_value v)

section
variable {off : Word} {w : Width} (h : admitted off w = false)
include h

theorem decodeWrite_of_not_admitted (v : Word) : decodeWrite off w v = .roWrite off w v := by
  rw [decodeWrite, h]
  rfl

theorem exec_csrRead_of_not_admitted (s : State) : exec (.csrRead off w) s = .next { s with bus := some .err } := by
  rw [exec, execCsrRead, h]
  rfl

theorem exec_roWrite_of_not_admitted (v : Word) (s : State) :
    exec (.roWrite off w v) s = .next { s with bus := some .err } := by
  rw [exec, execRoWrite, h]
  rfl

end

/-- Settles O12: such an access is not admitted, whatever the base of the window. -/
theorem badAccessAnswersErr : Obligations.BadAccessAnswersErr := by
  intro s off v w h
  have hna : admitted off w = false := admitted_eq_false (h.imp_right .inl)
  refine ⟨exec_csrRead_of_not_admitted hna s, exec_roWrite_of_not_admitted hna v s, fun c => ?_⟩
  have hoff : c.csrBase + off - c.csrBase = off := add_sub_cancel_left _ _
  rw [decode_csrRead, decode_csrWrite, hoff, decodeWrite_of_not_admitted hna]
  exact ⟨rfl, rfl⟩

/-- Settles O13: the offset of such an address is not admitted. -/
theorem accessOutsideWindow : Obligations.AccessOutsideWindow := by
  intro s c addr v h
  have hna : admitted (addr - c.csrBase) .b4 = false := admitted_eq_false (.inr (.inr h))
  refine ⟨_, _, decode_csrRead c addr .b4, exec_csrRead_of_not_admitted hna s, decode_csrWrite c addr .b4 v, ?_⟩
  rw [decodeWrite_of_not_admitted hna]
  exact exec_roWrite_of_not_admitted hna v s

end Sys2Proof.Machine
end

section
/-! PROOFS. The rows of the received messages, keyed by their class (30_encoding.md R98, R99): a class is its condition, and a
row's datagram meets the condition exactly when the row is well formed and fits the context. -/

namespace Sys2Proof.Machine

/-! ### Big-endian fields (20_memory.md R71) -/

theorem be16At_toNat (b : List Byte) (i : Nat) :
    (be16At b i).toNat = (b.getD i 0#8).toNat * 256 + (b.getD (i + 1) 0#8).toNat := by
  rw [be16At, BitVec.toNat_append, ← Nat.shiftLeft_add_eq_or_of_lt (BitVec.isLt _), Nat.shiftLeft_eq]

theorem eq_ofNat_of_toNat_eq {w n : Nat} {v : BitVec w} (h : v.toNat = n) : v = BitVec.ofNat w n := by
  rw [← h, BitVec.ofNat_toNat, BitVec.setWidth_eq]

theorem be16At_eq_ofNat_lenField (b : List Byte) : be16At b 0 = BitVec.ofNat 16 (lenField b) := eq_ofNat_of_toNat_eq rfl

theorem be16At_eq_iff {d : Datagram} (h : d.length = 2) {v : Half} : be16At d 0 = v ↔ d = be16 v :=
  ⟨fun hv => by rw [← hv, be16_be16At h], fun hd => by rw [hd, be16At_be16_alone]⟩

/-! ### The frame rows -/

/-- Of the at most 84 bytes that RE keeps (R70), no more than 80 stand behind the header, so that R98's second comparison of
an overlong frame says nothing new. -/
theorem frameClass_rxKept (e : Bit) (d : Datagram) :
    frameClass e (rxKept d) = if d.length < 4 then .short
      else if lenField (rxKept d) = 0 then .eot
      else if 80 < lenField (rxKept d) then .overlong
      else if seqBit (seqField (rxKept d)) = e then .dataMatch else .dataDup := by
  have hlen := rxKept_length d
  have hshort : (rxKept d).length < hdrBytes ↔ d.length < 4 := by simp only [hdrBytes]; omega
  have hover : lenField (rxKept d) > maxPayload ∧ lenField (rxKept d) > (rxKept d).length - hdrBytes ↔
      80 < lenField (rxKept d) := by simp only [hdrBytes, maxPayload]; omega
  simp only [frameClass, hshort, hover]

theorem frameClass_eq_iff {e : Bit} {d : Datagram} {k : FrameClass} :
    frameClass e (rxKept d) = k ↔ InFrameClass e d k := by
  refine ⟨fun h => h ▸ frameClass_spec e d, fun h => ?_⟩
  rw [frameClass_rxKept]
  cases k with
  | short => exact if_pos h
  | eot => rw [if_neg h.1.not_gt, if_pos h.2]
  | overlong => rw [if_neg h.1.not_gt, if_neg h.2.ne_zero, if_pos h.2]
  | dataMatch =>
    obtain ⟨h4, h1, h80, hs⟩ := h
    rw [if_neg h4.not_gt, if_neg (by omega), if_neg h80.not_gt, if_pos hs]
  | dataDup =>
    obtain ⟨h4, h1, h80, hs⟩ := h
    rw [if_neg h4.not_gt, if_neg (by omega), if_neg h80.not_gt, if_neg hs]

/-- The row of the frame class `k`. -/
def frameRow (k : FrameClass) (d : Datagram) (keep : Bool) : Instr :=
  match k with
  | .short => .frameShort d keep
  | .eot => .frameEot d keep
  | .overlong => .frameOverlong d keep
  | .dataMatch => .frameDataMatch d keep
  | .dataDup => .frameDataDup d keep

theorem decodeRxd_eq (c : DecodeCtx) (keep : Bool) (d : Datagram) :
    decodeRxd c keep d = frameRow (frameClass c.expected (rxKept d)) d keep := rfl

theorem encode_frameRow (c : DecodeCtx) (k : FrameClass) (d : Datagram) (keep : Bool) :
    encode c (frameRow k d keep) = (.rxd keep, d) := by
  cases k <;> rfl

theorem frameRow_admitted_iff {c : DecodeCtx} {k : FrameClass} {d : Datagram} {keep : Bool} :
    wellFormed (frameRow k d keep) = true ∧ fits c (frameRow k d keep) = true ↔ InFrameClass c.expected d k := by
  cases k <;> simp [frameRow, wellFormed, isDataFrame, fits, InFrameClass, rxKept_length, and_assoc]

/-! ### The ACK rows -/

theorem ackClass_eq_iff {q : Bit} {d : Datagram} {k : AckClass} : ackClass q d = k ↔ InAckClass q d k := by
  refine ⟨fun h => h ▸ ackClass_spec q d, fun h => ?_⟩
  unfold ackClass
  cases k with
  | malformed => exact if_pos h
  | hit =>
    have h2 : d.length = 2 := h ▸ rfl
    rw [if_neg (not_not_intro h2), if_pos ((be16At_eq_iff h2).mpr h)]
  | mismatch =>
    obtain ⟨h2, hne⟩ := h
    rw [if_neg (not_not_intro h2), if_neg (mt (be16At_eq_iff h2).mp hne)]

/-- The row of the ACK class `k`. -/
def ackRow (k : AckClass) (d : Datagram) (keep : Bool) : Instr :=
  match k with
  | .malformed => .ackMalformed d keep
  | .hit => .ackMatch d keep
  | .mismatch => .ackMismatch d keep

theorem decodeRxa_eq (c : DecodeCtx) (keep : Bool) (d : Datagram) :
    decodeRxa c keep d = ackRow (ackClass c.seq d) d keep := rfl

theorem encode_ackRow (c : DecodeCtx) (k : AckClass) (d : Datagram) (keep : Bool) :
    encode c (ackRow k d keep) = (.rxa keep, d) := by
  cases k <;> rfl

theorem ackRow_admitted_iff {c : DecodeCtx} {k : AckClass} {d : Datagram} {keep : Bool} :
    wellFormed (ackRow k d keep) = true ∧ fits c (ackRow k d keep) = true ↔ InAckClass c.seq d k := by
  cases k with
  | malformed => simp [ackRow, wellFormed, fits, InAckClass]
  | hit =>
    have hbit : (c.seq.setWidth 16).toNat ≤ 1 := by rw [BitVec.toNat_setWidth]; omega
    simp only [ackRow, wellFormed, fits, InAckClass, decide_eq_true_eq]
    constructor
    · rintro ⟨⟨h2, -⟩, h⟩
      exact (be16At_eq_iff h2).mp h
    · rintro rfl
      rw [be16At_be16_alone]
      exact ⟨⟨rfl, hbit⟩, rfl⟩
  | mismatch => simp +contextual [ackRow, wellFormed, fits, InAckClass, be16At_eq_iff]

end Sys2Proof.Machine
end

section
/-! PROOFS. The decoder of port words and the encoder are inverse to each other on the admitted instructions (30_encoding.md
R90 to R101): for each port, what its decoder answers and for which bytes. -/

namespace Sys2Proof.Machine

open BitVec (extractLsb'_append_eq_of_le extractLsb'_append_eq_left extractLsb'_append_eq_right)

/-- `i` is admitted in the context, and `(p, bs)` is its encoding. -/
def Encodes (c : DecodeCtx) (i : Instr) (p : Port) (bs : List Byte) : Prop :=
  wellFormed i = true ∧ fits c i = true ∧ encode c i = (p, bs)

/-- `i` is what its encoding decodes to. -/
def Decodes (c : DecodeCtx) (i : Instr) : Prop := decode c (encode c i).1 (encode c i).2 = .ok i

/-- A check that fails with `e` has been passed where the answer is no failure. -/
theorem check_eq_ok_iff {ε α : Type} {p : Prop} [Decidable p] {e : ε} {x : Except ε α} {a : α} :
    (if p then .error e else x) = .ok a ↔ ¬ p ∧ x = .ok a := by
  by_cases h : p <;> simp [h]

/-! ### The emitted messages (R92 to R95) -/

theorem encodeFrame_eq_ok_iff {s : Bit} {p f : List Byte} :
    encodeFrame s p = .ok f ↔ p.length ≤ 80 ∧ f = frameBytes s p := by
  rw [encodeFrame, check_eq_ok_iff, Except.ok.injEq, maxPayload, not_lt, eq_comm (a := frameBytes s p)]

theorem decodeTxd_eq_ok_iff {smp : Option Half} {r : Resp} {f : List Byte} {i : Instr} :
    decodeTxd smp r f = .ok i ↔
      ∃ s p, 1 ≤ p.length ∧ p.length ≤ 80 ∧ f = frameBytes s p ∧ i = .txData s p smp r := by
  simp only [decodeTxd, check_eq_ok_iff, Except.ok.injEq, Decidable.not_not, hdrBytes, maxPayload]
  constructor
  · rintro ⟨h4, hq, hl, rfl⟩
    refine ⟨_, f.drop 4, ?_, ?_, (frameBytes_fields (by omega) (by omega) hq).symm, rfl⟩ <;> rw [List.length_drop] <;> omega
  · rintro ⟨s, p, h1, h80, rfl, rfl⟩
    rw [lenField_frameBytes s h80, frameBytes_length, seqField_frameBytes, seqBit_setWidth, frameBytes_drop]
    exact ⟨by omega, rfl, by omega, rfl⟩

theorem decodeTxdEot_eq_ok_iff {r : Resp} {f : List Byte} {i : Instr} :
    decodeTxdEot r f = .ok i ↔ ∃ s, f = encodeEot s ∧ i = .txEot s r := by
  simp only [decodeTxdEot, check_eq_ok_iff, Except.ok.injEq, Decidable.not_not, hdrBytes]
  constructor
  · rintro ⟨h4, hq, hl, rfl⟩
    have hf := frameBytes_fields (by omega) (by omega) hq
    rw [List.drop_of_length_le h4.le] at hf
    exact ⟨_, hf.symm, rfl⟩
  · rintro ⟨s, rfl, rfl⟩
    rw [encodeEot, lenField_frameBytes (p := []) s (Nat.zero_le 80), seqField_frameBytes, seqBit_setWidth]
    exact ⟨rfl, rfl, rfl, rfl⟩

/-- Four bytes are two big-endian fields. -/
theorem be16_fields {f : List Byte} (h : f.length = 4) : be16 (be16At f 0) ++ be16 (be16At f 2) = f := by
  match f, h with
  | [a, b, c, d], _ => exact congrArg₂ (· ++ ·) (be16_be16At (d := [a, b]) rfl) (be16_be16At (d := [c, d]) rfl)

theorem decodeTxdNotice_eq_ok_iff {r : Resp} {f : List Byte} {i : Instr} :
    decodeTxdNotice r f = .ok i ↔
      ∃ len : Half, 1 ≤ len.toNat ∧ len.toNat ≤ 80 ∧ f = be16 len ++ be16 0#16 ∧ i = .txNotfound len r := by
  simp only [decodeTxdNotice, check_eq_ok_iff, Except.ok.injEq, Decidable.not_not, hdrBytes, maxPayload]
  constructor
  · rintro ⟨h4, hq, hl, rfl⟩
    rw [lenField] at hl
    exact ⟨be16At f 0, by omega, by omega, hq ▸ (be16_fields h4).symm, rfl⟩
  · rintro ⟨len, h1, h80, rfl, rfl⟩
    rw [lenField, be16At_be16]
    exact ⟨rfl, append_bytes 0#16, by omega, rfl⟩

theorem decodeTxa_eq_ok_iff {smp : Option Half} {r : Resp} {f : List Byte} {i : Instr} :
    decodeTxa smp r f = .ok i ↔ ∃ a, f = encodeAck a ∧ i = .txAck a smp r := by
  simp only [decodeTxa, check_eq_ok_iff, Except.ok.injEq, Decidable.not_not, encodeAck]
  constructor
  · rintro ⟨h2, rfl⟩
    exact ⟨_, (be16_be16At h2).symm, rfl⟩
  · rintro ⟨a, rfl, rfl⟩
    exact ⟨rfl, congrArg (Instr.txAck · smp r) (be16At_be16_alone a)⟩

/-! ### The accesses of the HOST (R101; 10_state.md R28) -/

theorem ctrlValue_fields (v : Word) : ctrlValue (v.extractLsb' 2 30) (v.extractLsb' 1 1) (v.extractLsb' 0 1) = v := by
  unfold ctrlValue
  ext i hi
  simp only [BitVec.getElem_append, BitVec.getElem_extractLsb']
  repeat' split
  all_goals (rw [BitVec.getLsbD_eq_getElem (by omega)]; congr 1; omega)

theorem ctrlValue_hi (hi : BitVec 30) (b1 b0 : Bit) : (ctrlValue hi b1 b0).extractLsb' 2 30 = hi :=
  (extractLsb'_append_eq_of_le (by decide)).trans extractLsb'_append_eq_left

theorem ctrlValue_b1 (hi : BitVec 30) (b1 b0 : Bit) : (ctrlValue hi b1 b0).extractLsb' 1 1 = b1 :=
  (extractLsb'_append_eq_of_le (by decide)).trans extractLsb'_append_eq_right

theorem ctrlValue_b0 (hi : BitVec 30) (b1 b0 : Bit) : (ctrlValue hi b1 b0).extractLsb' 0 1 = b0 := extractLsb'_append_eq_right

/-- The row of a write of `ctrlValue hi b1 b0` to the CTRL register of `e`: SOFT_RESET wins over START (R257). -/
def ctrlRow (e : Engine) (hi : BitVec 30) (b1 b0 : Bit) : Instr :=
  if b1 = 1#1 then
    match e with
    | .se => .sSoftReset hi b0
    | .re => .rSoftReset hi b0
  else if b0 = 1#1 then
    match e with
    | .se => .sStart hi
    | .re => .rStart hi
  else .ctrlNop e hi

theorem decodeCtrl_eq (e : Engine) (v : Word) :
    decodeCtrl e v = ctrlRow e (v.extractLsb' 2 30) (v.extractLsb' 1 1) (v.extractLsb' 0 1) := rfl

theorem ctrlRow_encodes (c : DecodeCtx) (e : Engine) (hi : BitVec 30) (b1 b0 : Bit) : Encodes c (ctrlRow e hi b1 b0)
    (.csrWrite (c.csrBase + BitVec.ofNat 32 (ctrlOffset e)) .b4) (be32 (ctrlValue hi b1 b0)) := by
  obtain rfl | rfl := b1.eq_zero_or_eq_one
  · obtain rfl | rfl := b0.eq_zero_or_eq_one <;> cases e <;> exact ⟨rfl, rfl, rfl⟩
  · cases e <;> exact ⟨rfl, rfl, rfl⟩

theorem eq_ctrlOffset_of_csrAt {n : Nat} {e : Engine} : csrAt n = some (.ctrl e) → n = ctrlOffset e := by
  unfold csrAt
  split <;> rintro ⟨⟩ <;> rfl

theorem eq_cfgOffset_of_csrAt {n : Nat} {r : CfgReg} : csrAt n = some (.cfg r) → n = cfgOffset r := by
  unfold csrAt
  split <;> rintro ⟨⟩ <;> rfl

/-- The bytes of a CSR value written out. -/
theorem be32_append (b3 b2 b1 b0 : Byte) : be32 (b3 ++ b2 ++ b1 ++ b0) = [b3, b2, b1, b0] := by
  have h3 : (b3 ++ b2 ++ b1 ++ b0).extractLsb' 24 8 = b3 := (extractLsb'_append_eq_of_le (by decide)).trans
    ((extractLsb'_append_eq_of_le (by decide)).trans extractLsb'_append_eq_left)
  have h2 : (b3 ++ b2 ++ b1 ++ b0).extractLsb' 16 8 = b2 := (extractLsb'_append_eq_of_le (by decide)).trans
    ((extractLsb'_append_eq_of_le (by decide)).trans extractLsb'_append_eq_right)
  have h1 : (b3 ++ b2 ++ b1 ++ b0).extractLsb' 8 8 = b1 :=
    (extractLsb'_append_eq_of_le (by decide)).trans extractLsb'_append_eq_right
  have h0 : (b3 ++ b2 ++ b1 ++ b0).extractLsb' 0 8 = b0 := extractLsb'_append_eq_right
  rw [be32, h3, h2, h1, h0]

/-- What a write decodes to: a CTRL or a configuration register has one offset, and everything else is RO_WRITE. -/
theorem decodeWrite_cases (off : Word) (w : Width) (v : Word) :
    (∃ e, off = BitVec.ofNat 32 (ctrlOffset e) ∧ w = .b4 ∧ decodeWrite off w v = decodeCtrl e v) ∨
    (∃ r, off = BitVec.ofNat 32 (cfgOffset r) ∧ w = .b4 ∧ decodeWrite off w v = .cfgWrite r v) ∨
    (wellFormed (.roWrite off w v) = true ∧ decodeWrite off w v = .roWrite off w v) := by
  simp only [decodeWrite, wellFormed, isWritable]
  cases ha : admitted off w with
  | false => exact .inr (.inr ⟨rfl, rfl⟩)
  | true =>
    have hw : w = .b4 := (of_decide_eq_true ha).1
    simp only [if_true, Bool.true_and]
    split
    case h_1 e hc => exact .inl ⟨e, eq_ofNat_of_toNat_eq (eq_ctrlOffset_of_csrAt hc), hw, rfl⟩
    case h_2 r hc => exact .inr (.inl ⟨r, eq_ofNat_of_toNat_eq (eq_cfgOffset_of_csrAt hc), hw, rfl⟩)
    case h_3 => exact .inr (.inr ⟨by simp, rfl⟩)

/-! ### What decodes is encoded back -/

section
variable {c : DecodeCtx}

theorem decodeRxd_encodes (keep : Bool) (d : Datagram) : Encodes c (decodeRxd c keep d) (.rxd keep) d := by
  obtain ⟨hw, hf⟩ := frameRow_admitted_iff (keep := keep).mpr (frameClass_spec c.expected d)
  exact ⟨hw, hf, encode_frameRow c _ d keep⟩

theorem decodeRxa_encodes (keep : Bool) (d : Datagram) : Encodes c (decodeRxa c keep d) (.rxa keep) d := by
  obtain ⟨hw, hf⟩ := ackRow_admitted_iff (keep := keep).mpr (ackClass_spec c.seq d)
  exact ⟨hw, hf, encode_ackRow c _ d keep⟩

theorem decodeWrite_encodes (addr : Word) (w : Width) (v : Word) :
    Encodes c (decodeWrite (addr - c.csrBase) w v) (.csrWrite addr w) (be32 v) := by
  have haddr : c.csrBase + (addr - c.csrBase) = addr := add_sub_cancel _ _
  obtain ⟨e, ho, rfl, hi⟩ | ⟨r, ho, rfl, hi⟩ | ⟨hw, hi⟩ := decodeWrite_cases (addr - c.csrBase) w v <;> rw [hi]
  · have henc := ctrlRow_encodes c e (v.extractLsb' 2 30) (v.extractLsb' 1 1) (v.extractLsb' 0 1)
    rwa [← ho, haddr, ctrlValue_fields] at henc
  · exact ⟨rfl, rfl, by rw [encode, writeWord, ← ho, haddr]⟩
  · exact ⟨hw, rfl, by rw [encode, writeWord, haddr]⟩

theorem decodeSeStep_encodes {a : SeAnswer} {st : Nat} {i : Instr} (h : decodeSeStep a st = .ok i) :
    Encodes c i (.seStep a) [BitVec.ofNat 8 st] := by
  unfold decodeSeStep at h
  split at h
  case h_1 len b =>
    rw [check_eq_ok_iff, Decidable.not_not] at h
    obtain ⟨hb, h⟩ := h
    split at h
    case isTrue hl =>
      cases h
      exact ⟨decide_eq_true ⟨hl, hb⟩, rfl, rfl⟩
    case isFalse hl =>
      cases h
      simp only [maxPayload] at hb hl
      have hlen : len = BitVec.ofNat 7 b.length := eq_ofNat_of_toNat_eq (by omega)
      exact ⟨decide_eq_true (by simp only [maxPayload]; omega), rfl, by rw [encode, ← hlen]⟩
  case h_7 => split at h <;> cases h
  all_goals
    cases h
    exact ⟨rfl, rfl, rfl⟩

theorem decodeReStep_encodes {a : ReAnswer} {st : Nat} {i : Instr} (h : decodeReStep a st = .ok i) :
    Encodes c i (.reStep a) [BitVec.ofNat 8 st] := by
  unfold decodeReStep at h
  split at h
  case h_5 => split at h <;> cases h
  all_goals
    cases h
    exact ⟨rfl, rfl, rfl⟩

theorem decode_encodes {p : Port} {bs : List Byte} {i : Instr} (h : decode c p bs = .ok i) : Encodes c i p bs := by
  unfold decode at h
  cases p with
  | rxd keep => cases h; exact decodeRxd_encodes keep bs
  | rxa keep => cases h; exact decodeRxa_encodes keep bs
  | txd smp r =>
    obtain ⟨s, p, h1, h80, rfl, rfl⟩ := decodeTxd_eq_ok_iff.mp h
    exact ⟨decide_eq_true ⟨h1, h80⟩, rfl, rfl⟩
  | txdEot r =>
    obtain ⟨s, rfl, rfl⟩ := decodeTxdEot_eq_ok_iff.mp h
    exact ⟨rfl, rfl, rfl⟩
  | txdNotice r =>
    obtain ⟨len, h1, h80, rfl, rfl⟩ := decodeTxdNotice_eq_ok_iff.mp h
    exact ⟨decide_eq_true ⟨h1, h80⟩, rfl, rfl⟩
  | txa smp r =>
    obtain ⟨a, rfl, rfl⟩ := decodeTxa_eq_ok_iff.mp h
    exact ⟨rfl, rfl, rfl⟩
  | csrWrite addr w =>
    dsimp only at h
    split at h
    case h_1 b3 b2 b1 b0 =>
      cases h
      rw [← be32_append]
      exact decodeWrite_encodes addr w _
    case h_2 => cases h
  | csrRead addr w =>
    dsimp only at h
    split at h
    case h_1 =>
      cases h
      exact ⟨rfl, rfl, by rw [encode, add_sub_cancel]⟩
    case h_2 => cases h
  | seStep a =>
    dsimp only at h
    split at h
    case h_1 b =>
      rw [eq_ofNat_of_toNat_eq (v := b) rfl]
      exact decodeSeStep_encodes h
    case h_2 => cases h
  | reStep a =>
    dsimp only at h
    split at h
    case h_1 b =>
      rw [eq_ofNat_of_toNat_eq (v := b) rfl]
      exact decodeReStep_encodes h
    case h_2 => cases h
  | tick k =>
    dsimp only at h
    split at h
    case h_1 =>
      cases h
      exact ⟨rfl, rfl, rfl⟩
    case h_2 => cases h

end

/-- Settles O3: at every port, what decodes is admitted and encodes to the word. -/
theorem encodeInvertsDecode : Obligations.EncodeInvertsDecode :=
  fun _ _ _ _ => decode_encodes

/-! ### What is encoded decodes back -/

section
variable {c : DecodeCtx}

theorem decodes_frameRow {k : FrameClass} {d : Datagram} {keep : Bool} (hw : wellFormed (frameRow k d keep) = true)
    (hf : fits c (frameRow k d keep) = true) : Decodes c (frameRow k d keep) := by
  have hk : frameClass c.expected (rxKept d) = k := frameClass_eq_iff.mpr (frameRow_admitted_iff.mp ⟨hw, hf⟩)
  rw [Decodes, encode_frameRow, decode, decodeRxd_eq, hk]

theorem decodes_ackRow {k : AckClass} {d : Datagram} {keep : Bool} (hw : wellFormed (ackRow k d keep) = true)
    (hf : fits c (ackRow k d keep) = true) : Decodes c (ackRow k d keep) := by
  have hk : ackClass c.seq d = k := ackClass_eq_iff.mpr (ackRow_admitted_iff.mp ⟨hw, hf⟩)
  rw [Decodes, encode_ackRow, decode, decodeRxa_eq, hk]

theorem decode_csrWrite_at (off : Word) (w : Width) (v : Word) :
    decode c (.csrWrite (c.csrBase + off) w) (be32 v) = .ok (decodeWrite off w v) := by
  rw [decode_csrWrite, add_sub_cancel_left]

theorem decodes_ctrlRow (e : Engine) (hi : BitVec 30) (b1 b0 : Bit) : Decodes c (ctrlRow e hi b1 b0) := by
  have hwrite (v : Word) : decodeWrite (BitVec.ofNat 32 (ctrlOffset e)) .b4 v = decodeCtrl e v := by cases e <;> rfl
  obtain ⟨-, -, henc⟩ := ctrlRow_encodes c e hi b1 b0
  rw [Decodes, henc, decode_csrWrite_at, hwrite, decodeCtrl_eq, ctrlValue_hi, ctrlValue_b1, ctrlValue_b0]

theorem decodes_cfgWrite (r : CfgReg) (v : Word) : Decodes c (.cfgWrite r v) :=
  (decode_csrWrite_at _ _ v).trans (by cases r <;> rfl)

theorem decodes_roWrite {off : Word} {w : Width} {v : Word} (hw : wellFormed (.roWrite off w v) = true) :
    Decodes c (.roWrite off w v) := by
  refine (decode_csrWrite_at off w v).trans ?_
  obtain ⟨e, rfl, rfl, -⟩ | ⟨r, rfl, rfl, -⟩ | ⟨-, hi⟩ := decodeWrite_cases off w v
  · cases e <;> cases hw
  · cases r <;> cases hw
  · rw [hi]

theorem decodes_csrRead (off : Word) (w : Width) : Decodes c (.csrRead off w) :=
  congrArg (fun o => Except.ok (Instr.csrRead o w)) (add_sub_cancel_left c.csrBase off)

theorem decodes_seReadEnd {len : BitVec 7} {b : List Byte} (hw : wellFormed (.seReadEnd len b) = true) :
    Decodes c (.seReadEnd len b) := by
  obtain ⟨hl, hb⟩ := of_decide_eq_true hw
  exact (if_neg (not_not_intro hb)).trans (if_pos hl)

theorem decodes_seReadChunk {b : List Byte} (hw : wellFormed (.seReadChunk b) = true) : Decodes c (.seReadChunk b) := by
  obtain ⟨h1, h80⟩ := of_decide_eq_true hw
  simp only [maxPayload] at h80
  have hlen : (BitVec.ofNat 7 b.length).toNat = b.length := by rw [BitVec.toNat_ofNat]; omega
  have hb : b.length = min (BitVec.ofNat 7 b.length).toNat maxPayload := by simp only [hlen, maxPayload]; omega
  have hl : ¬ ((BitVec.ofNat 7 b.length).toNat = 0 ∨ (BitVec.ofNat 7 b.length).toNat > maxPayload) := by
    simp only [hlen, maxPayload]; omega
  exact (if_neg (not_not_intro hb)).trans (if_neg hl)

end

/-- Settles O2: the received and the emitted messages and the HOST's accesses by the lemmas of their ports, and the steps of the
engines, whose state values are constants, by evaluation. -/
theorem decodeInvertsEncode : Obligations.DecodeInvertsEncode := by
  intro c i hw hf
  cases i with
  | frameShort d keep => exact decodes_frameRow (k := .short) hw hf
  | frameEot d keep => exact decodes_frameRow (k := .eot) hw hf
  | frameOverlong d keep => exact decodes_frameRow (k := .overlong) hw hf
  | frameDataMatch d keep => exact decodes_frameRow (k := .dataMatch) hw hf
  | frameDataDup d keep => exact decodes_frameRow (k := .dataDup) hw hf
  | ackMalformed d keep => exact decodes_ackRow (k := .malformed) hw hf
  | ackMatch d keep => exact decodes_ackRow (k := .hit) hw hf
  | ackMismatch d keep => exact decodes_ackRow (k := .mismatch) hw hf
  | txData s p smp r =>
    obtain ⟨h1, h80⟩ := of_decide_eq_true hw
    exact decodeTxd_eq_ok_iff.mpr ⟨s, p, h1, h80, rfl, rfl⟩
  | txEot s r => exact decodeTxdEot_eq_ok_iff.mpr ⟨s, rfl, rfl⟩
  | txNotfound len r =>
    obtain ⟨h1, h80⟩ := of_decide_eq_true hw
    exact decodeTxdNotice_eq_ok_iff.mpr ⟨len, h1, h80, rfl, rfl⟩
  | txAck a smp r => exact decodeTxa_eq_ok_iff.mpr ⟨a, rfl, rfl⟩
  | sStart hi => exact decodes_ctrlRow .se hi 0#1 1#1
  | sSoftReset hi b0 => exact decodes_ctrlRow .se hi 1#1 b0
  | rStart hi => exact decodes_ctrlRow .re hi 0#1 1#1
  | rSoftReset hi b0 => exact decodes_ctrlRow .re hi 1#1 b0
  | ctrlNop e hi => exact decodes_ctrlRow e hi 0#1 0#1
  | cfgWrite r v => exact decodes_cfgWrite r v
  | roWrite off w v => exact decodes_roWrite hw
  | csrRead off w => exact decodes_csrRead off w
  | seReadEnd len b => exact decodes_seReadEnd hw
  | seReadChunk b => exact decodes_seReadChunk hw
  | _ => rfl

/-- Settles O1: the words are evaluated; for the three commands the base of the window cancels. -/
theorem writtenOutWordsDecode : Obligations.WrittenOutWordsDecode := by
  intro b e s
  have write (off v : Word) : decode ⟨b, e, s⟩ (.csrWrite (b + off) .b4) (be32 v) = .ok (decodeWrite off .b4 v) :=
    decode_csrWrite_at off .b4 v
  have start := write 0x000#32 0x00000001#32
  rw [BitVec.add_zero] at start
  exact ⟨rfl, rfl, rfl, rfl, rfl, start, write 0x080#32 0x00000003#32, write 0x00C#32 0x1234BEEF#32, rfl, rfl⟩

end Sys2Proof.Machine
end

section
/-! PROOFS. The meaning of the message rows (30_encoding.md R90, R92, R98, R99), by the class of the datagram taken and by the frame
emitted, and the codec's decode by the same classes (40_codec.md R122). -/

namespace Sys2Proof.Machine

/-! ### The decoded frame (40_codec.md R122) -/

/-- What `decode` finds in a buffer that begins with what RE keeps of `d`, by the class of `d`. -/
def decodedAs (k : FrameClass) (b buf : List Byte) : Except CodecError Frame :=
  match k with
  | .short => .error .malformedFrame
  | .eot => .ok ⟨0#16, seqField b, []⟩
  | .overlong => .error .malformedFrame
  | .dataMatch => .ok ⟨be16At b 0, seqField b, ((overwrite buf b).drop 4).take (lenField b)⟩
  | .dataDup => .ok ⟨be16At b 0, seqField b, ((overwrite buf b).drop 4).take (lenField b)⟩

theorem decodeFrame_eq_decodedAs (e : Bit) (d : Datagram) (buf : List Byte) :
    decodeFrame (rxKept d).length (overwrite buf (rxKept d)) = decodedAs (frameClass e (rxKept d)) (rxKept d) buf := by
  obtain ⟨hc | hc, hr⟩ | ⟨hc, hr⟩ | ⟨hc, -, -, -, hr⟩ := frameClass_cases e d (Receiver.atReset buf 0#16 0#16)
  · rw [hc]; exact hr
  · rw [hc]; exact hr
  · rw [hc]; exact hr
  · rw [hc]
    split <;> exact hr

/-- Where the datagram brought the whole payload, the payload is the datagram's own bytes. -/
theorem payload_of_whole {d : Datagram} {L : Nat} (h : 4 + L ≤ (d.take 84).length) (buf : List Byte) :
    ((overwrite buf (d.take 84)).drop 4).take L = (d.drop 4).take L := by
  rw [List.length_take] at h
  rw [overwrite, List.drop_append_of_le_length (by rw [List.length_take]; omega),
    List.take_append_of_le_length (by rw [List.length_drop, List.length_take]; omega), List.drop_take, List.take_take,
    min_eq_left (by omega)]

/-- Settles O5: the lengths put the datagram in its class, and the class says what is decoded. -/
theorem decodeFollowsClasses : Obligations.DecodeFollowsClasses := by
  intro d buf e hbuf b L Q r
  have hL : lenField b = L := be16At_toNat b 0
  have hQ : (seqField b).toNat = Q := be16At_toNat b 2
  have hlen : b.length = min 84 d.length := List.length_take
  have class_of {k : FrameClass} (h : InFrameClass e d k) : frameClass e b = k ∧ r = decodedAs k b buf := by
    have hk : frameClass e b = k := frameClass_eq_iff.mpr h
    exact ⟨hk, hk ▸ decodeFrame_eq_decodedAs e d buf⟩
  refine ⟨fun h => ?_, fun h h0 => ?_, fun h h81 => ?_, fun h h1 h80 => ?_⟩
  · exact class_of (k := .short) (show d.length < 4 by omega)
  · obtain ⟨hk, hr⟩ := class_of (k := .eot) ⟨by omega, hL.trans h0⟩
    exact ⟨hk, seqField b, hQ, hr⟩
  · exact class_of (k := .overlong) ⟨by omega, h81.trans_eq hL.symm⟩
  · have h1' : 1 ≤ lenField b := h1.trans_eq hL.symm
    have h80' : lenField b ≤ 80 := hL.trans_le h80
    have hmatch (hs : seqBit (seqField b) = e) := class_of (k := .dataMatch) ⟨by omega, h1', h80', hs⟩
    have hdup (hs : seqBit (seqField b) ≠ e) := class_of (k := .dataDup) ⟨by omega, h1', h80', hs⟩
    have hr : r = .ok ⟨be16At b 0, seqField b, ((overwrite buf b).drop 4).take L⟩ := by
      rw [← hL]
      by_cases hs : seqBit (seqField b) = e
      · exact (hmatch hs).2
      · exact (hdup hs).2
    refine ⟨_, hr, hL, hQ, ?_, rfl, fun hw => payload_of_whole hw buf, fun hs => (hmatch hs).1, fun hs => (hdup hs).1⟩
    have hfull : (overwrite buf b).length = 84 := by rw [overwrite_length (by omega), hbuf]
    rw [List.length_take, List.length_drop]
    omega

/-! ### What a taken datagram does, by its class (43_receiver.md R201, R202; 42_sender.md R166) -/

/-- RE has taken a datagram of the class `k`, of which it keeps `b`, from CHD, of which `q` is left. -/
def frameTaken (k : FrameClass) (b : List Byte) (q : List Datagram) (s : State) : State :=
  let re : Receiver := { s.re with rxbuf := b ++ s.re.rxbuf.drop b.length, rxn := b.length }
  match k with
  | .short => { s with chd := q, re := { re with cause := .malformedFrame, state := .fault } }
  | .eot => { s with chd := q, re := { re with state := .done } }
  | .overlong => { s with chd := q, re := { re with cause := .malformedFrame, state := .fault } }
  | .dataMatch => { s with chd := q, re := { re with
      rlen := BitVec.ofNat 16 (lenField b), rseq := seqField b, state := .deliver } }
  | .dataDup => { s with chd := q, re := { re with
      rlen := BitVec.ofNat 16 (lenField b), rseq := seqField b, duplicates := s.re.duplicates + 1#32, state := .ack } }

theorem reTake_eq (d : Datagram) (q : List Datagram) (s : State) :
    reTake d q s = frameTaken (frameClass s.re.expected (rxKept d)) (rxKept d) q s := by
  obtain ⟨hc | hc, ht⟩ | ⟨hc, ht⟩ | ⟨-, -, -, ⟨hc, -, ht⟩ | ⟨hc, -, ht⟩⟩ := reTake_cases d q s
  · rw [hc, ht]; rfl
  · rw [hc, ht]; rfl
  · rw [hc, ht]; rfl
  · rw [hc, ht, be16At_eq_ofNat_lenField]; rfl
  · rw [hc, ht, be16At_eq_ofNat_lenField]; rfl

theorem exec_frameRow (k : FrameClass) (d : Datagram) (keep : Bool) (s : State) :
    exec (frameRow k d keep) s = .next (reTakeClass k d keep s) := by
  cases k <;> rfl

theorem exec_frameRow_of_delivered {k : FrameClass} {d : Datagram} {keep : Bool} {q : List Datagram} {s : State}
    (hs : s.re.state = .wait) (hd : deliverThis s.params.channelMode s.chd d keep = some q)
    (hc : InFrameClass s.re.expected d k) : exec (frameRow k d keep) s = .next (frameTaken k (rxKept d) q s) := by
  have hk : frameClass s.re.expected (rxKept d) = k := frameClass_eq_iff.mpr hc
  simp only [exec_frameRow, reTakeClass, hs, hk, and_self, if_true, hd, reTake_eq]

/-- Settles O39: each row's datagram meets the condition of the row's class, and is taken as its class is. -/
theorem frameRowsAct : Obligations.FrameRowsAct := by
  intro keep d q s hs hd
  have act {k : FrameClass} := exec_frameRow_of_delivered (k := k) hs hd
  exact ⟨fun h => act (k := .short) h, fun h4 hz => act (k := .eot) ⟨h4, hz⟩, fun h4 ho => act (k := .overlong) ⟨h4, ho⟩,
    fun h4 h1 h80 hb => act (k := .dataMatch) ⟨h4, h1, h80, hb⟩, fun h4 h1 h80 hb => act (k := .dataDup) ⟨h4, h1, h80, hb⟩⟩

/-- SE has taken a datagram of the class `k` from CHA, of which `q` is left. -/
def ackTaken (k : AckClass) (q : List Datagram) (s : State) : State :=
  match k with
  | .malformed => { s with cha := q, se := { s.se with cause := .malformedAck, state := .fault } }
  | .hit => { s with
      cha := q
      se := { s.se with tmr := 0#64, texp := false, acked := s.se.acked + 1#32, seq := s.se.seq ^^^ 1#1, state := .read } }
  | .mismatch => { s with cha := q, se := { s.se with tmr := 0#64, texp := false, state := .send } }

theorem seTake_eq (d : Datagram) (q : List Datagram) (s : State) :
    seTake d q s = ackTaken (ackClass s.se.seq d) q s := by
  obtain ⟨h2, ht⟩ | ⟨h2, hq, ht⟩ | ⟨h2, hq, ht⟩ := seTake_cases d q s
  · have hk : ackClass s.se.seq d = .malformed := if_pos h2
    rw [ht, hk]; rfl
  · have hk : ackClass s.se.seq d = .hit := (if_neg (not_not_intro h2)).trans (if_pos hq)
    rw [ht, hk]; rfl
  · have hk : ackClass s.se.seq d = .mismatch := (if_neg (not_not_intro h2)).trans (if_neg hq)
    rw [ht, hk]; rfl

theorem exec_ackRow (k : AckClass) (d : Datagram) (keep : Bool) (s : State) :
    exec (ackRow k d keep) s = .next (seTakeClass k d keep s) := by
  cases k <;> rfl

theorem exec_ackRow_of_delivered {k : AckClass} {d : Datagram} {keep : Bool} {q : List Datagram} {s : State}
    (hs : s.se.state = .wait) (hd : deliverThis s.params.channelMode s.cha d keep = some q)
    (hc : InAckClass s.se.seq d k) : exec (ackRow k d keep) s = .next (ackTaken k q s) := by
  have hk : ackClass s.se.seq d = k := ackClass_eq_iff.mpr hc
  simp only [exec_ackRow, seTakeClass, hs, hk, and_self, if_true, hd, seTake_eq]

/-- Settles O32: each row's datagram meets the condition of the row's class, and is taken as its class is. -/
theorem ackRowsAct : Obligations.AckRowsAct := by
  intro keep d q s hs hd
  have act {k : AckClass} := exec_ackRow_of_delivered (k := k) hs hd
  exact ⟨fun h => act (k := .malformed) h, fun h => act (k := .hit) h, fun h2 hne => act (k := .mismatch) ⟨h2, hne⟩⟩

/-! ### The emitted data frame (42_sender.md R165) -/

section
variable {smp : Option Half} {u l : Half} {s : State}

theorem sendAttempt_of_sample (r : Resp) (hs : s.se.state = .send) (hu : SampleIs s.se.sampleExt s.se.lfsr smp u l) :
    sendAttempt smp r s = sendWith u l r s := by
  simp only [sendAttempt, hs, if_true, seSample, drawSample_of hu]

theorem emitsData_of_sample {seq : Bit} {p : List Byte} (hs : s.se.state = .send)
    (hu : SampleIs s.se.sampleExt s.se.lfsr smp u l) (hp : s.se.lossP.toNat ≤ u.toNat)
    (hf : txFrame s.se = frameBytes seq p) : emitsData seq p smp s = true := by
  simp [emitsData, hs, hf, seSample, drawSample_of hu, shouldDrop, hp]

theorem exec_txData_of_sample {seq : Bit} {p : List Byte} (r : Resp) (hs : s.se.state = .send)
    (hu : SampleIs s.se.sampleExt s.se.lfsr smp u l) (hp : s.se.lossP.toNat ≤ u.toNat)
    (hf : txFrame s.se = frameBytes seq p) : exec (.txData seq p smp r) s = .next (sendWith u l r s) := by
  rw [exec, execTxData, if_pos (emitsData_of_sample hs hu hp hf), sendAttempt_of_sample r hs hu]

end

/-- Settles O30: the attempt passes the gate, and the frame in flight is the one of the word. -/
theorem dataFrameIsEmitted : Obligations.DataFrameIsEmitted := by
  intro seq p smp u l s hs hu hp hf
  have hframe : txFrame s.se = frameBytes seq p := (encodeFrame_eq_ok_iff.mp hf).2
  have hpass : ¬ (shouldDrop s.se.lossP u = true) := by simpa [shouldDrop] using hp
  have emits (r : Resp) := exec_txData_of_sample r hs hu hp hframe
  constructor
  · rw [emits, sendWith, if_neg hpass, hframe]
    rfl
  · rw [emits, sendWith, if_neg hpass]
    rfl

end Sys2Proof.Machine
end

section
/-! PROOFS. The codec by itself (40_codec.md R120 to R125): the bytes that it builds, and what it reads back out of a buffer and of
an acknowledgment. -/

namespace Sys2Proof.Machine

/-! ### The bytes of a frame (R120, R121; 30_encoding.md R91, R96) -/

/-- The sequence field has its bits 15:1 clear. -/
theorem be16_setWidth (s : Bit) : be16 (s.setWidth 16) = [0#8, s.setWidth 8] := by
  revert s; decide

theorem frameBytes_eq (s : Bit) (p : List Byte) :
    frameBytes s p = be16 (BitVec.ofNat 16 p.length) ++ [0#8, s.setWidth 8] ++ p := by
  rw [frameBytes, be16_setWidth]

theorem encodeFrame_of_tooLarge (s : Bit) {p : List Byte} (h : 80 < p.length) :
    encodeFrame s p = .error .payloadTooLarge := if_pos h

/-- The first two bytes of a frame are its payload's length, big-endian. -/
theorem frameBytes_len_bytes (s : Bit) {p : List Byte} (h : p.length ≤ 80) :
    ((frameBytes s p).getD 0 0#8).toNat * 256 + ((frameBytes s p).getD 1 0#8).toNat = p.length :=
  (be16At_toNat _ 0).symm.trans (lenField_frameBytes s h)

/-- Settles O4: a payload that `encode` accepts gives the bytes of its frame, and the EOT frame is that of the empty one. -/
theorem encodeBuildsFrame : Obligations.EncodeBuildsFrame := by
  intro s p
  refine ⟨rfl, encodeEot_eq s, encodeFrame_of_tooLarge s, fun h80 => ?_⟩
  have hbytes := frameBytes_eq s p
  refine ⟨frameBytes s p, encodeFrame_eq_ok_iff.mpr ⟨h80, rfl⟩, frameBytes_length s p, frameBytes_len_bytes s h80, ?_, ?_,
    frameBytes_drop s p⟩
  · exact congrArg (List.getD · 2 0#8) hbytes
  · exact congrArg (List.getD · 3 0#8) hbytes

/-! ### A data frame in a buffer (R122, R123) -/

/-- A data frame's fields are its header's, and its payload is as many bytes behind the header as the header declares, also
where the bytes `b` that were received end before those. -/
theorem decodeFrame_append_of_data {b : List Byte} (h4 : 4 ≤ b.length) (h1 : 1 ≤ lenField b) (h80 : lenField b ≤ 80)
    (x : List Byte) : decodeFrame b.length (b ++ x) =
      .ok ⟨be16At b 0, seqField b, (b.drop 4 ++ x).take (lenField b)⟩ := by
  have hover : ¬ (lenField b > maxPayload ∧ lenField b > b.length - hdrBytes) := fun ⟨h81, _⟩ => h80.not_gt h81
  rw [decodeFrame, lenField_append h4, seqField_append h4, be16At_append (by omega), if_neg h4.not_gt, if_neg (by omega),
    if_neg hover, hdrBytes, List.drop_append_of_le_length h4]

/-- Settles O6: an encoded frame declares its own payload, so what is read behind the header ends where the payload does. -/
theorem decodeInvertsEncodeFrame : Obligations.DecodeInvertsEncodeFrame := by
  intro s p f buf h1 hf
  obtain ⟨h80, rfl⟩ := encodeFrame_eq_ok_iff.mp hf
  have hlen := lenField_frameBytes s h80
  rw [decodeFrame_append_of_data (by rw [frameBytes_length]; omega) (by omega) (by omega), be16At_eq_ofNat_lenField,
    hlen, seqField_frameBytes, frameBytes_drop, List.take_left]

/-- Settles O7: the received bytes end before the payload does, and the buffer is long enough to supply the rest. -/
theorem truncatedPayloadReadsBuffer : Obligations.TruncatedPayloadReadsBuffer := by
  rintro b buf L h4 hshort hbuf h1 h80 rfl
  have hpayload : (b.drop 4 ++ buf.drop b.length).take (lenField b) =
      b.drop 4 ++ (buf.drop b.length).take (4 + lenField b - b.length) := by
    rw [List.take_append, List.take_of_length_le (by rw [List.length_drop]; omega), List.length_drop]
    congr 2
    omega
  refine ⟨_, decodeFrame_append_of_data h4 h1 h80 _, rfl, rfl, hpayload, ?_⟩
  rw [List.length_take, List.length_append, List.length_drop, List.length_drop]
  omega

/-! ### The acknowledgment (R124, R125) -/

theorem decodeAck_of_length {d : Datagram} (h : d.length = 2) : decodeAck d = .ok (be16At d 0) := if_pos h

theorem decodeAck_of_length_ne {d : Datagram} (h : d.length ≠ 2) : decodeAck d = .error .malformedAck := if_neg h

/-- Settles O8: both directions are the round trip of one big-endian field. -/
theorem ackRoundTrip : Obligations.AckRoundTrip := by
  refine ⟨fun q => ?_, fun d => decodeAck_of_length_ne, fun a b => ⟨_, decodeAck_of_length rfl, be16At_toNat [a, b] 0⟩⟩
  have hlen : (encodeAck q).length = 2 := be16_length q
  have hvalue : be16At (encodeAck q) 0 = q := be16At_be16_alone q
  refine ⟨hlen, ?_, ?_⟩
  · exact (be16At_toNat (encodeAck q) 0).symm.trans (congrArg BitVec.toNat hvalue)
  · rw [decodeAck_of_length hlen, hvalue]

end Sys2Proof.Machine
end

section
/-! PROOFS. The loss gate by itself (41_loss_gate.md R143 to R145): the LFSR's step bit by bit, and the gate's comparison. -/

namespace Sys2Proof.Machine

/-! ### The LFSR's step (R145) -/

/-- The mask is toggled in by the bit that the shift drops. -/
theorem lfsrStep_eq (a : Half) : lfsrStep a = (a >>> 1) ^^^ (if a.getLsbD 0 then lfsrMask else 0#16) := by
  have hlsb : a.extractLsb' 0 1 = 1#1 ↔ a.getLsbD 0 = true := by
    simp [BitVec.toNat_eq, BitVec.getLsbD, Nat.testBit_zero]
  unfold lfsrStep
  simp only [hlsb]
  split
  · rfl
  · exact BitVec.xor_zero.symm

theorem getLsbD_lfsrMask : ∀ i < 16, lfsrMask.getLsbD i = decide (i ∈ [10, 12, 13, 15]) := by decide

theorem getLsbD_lfsrStep (a : Half) {i : Nat} (hi : i < 16) :
    (lfsrStep a).getLsbD i = (a.getLsbD (i + 1) ^^ (a.getLsbD 0 && decide (i ∈ [10, 12, 13, 15]))) := by
  rw [lfsrStep_eq, BitVec.getLsbD_xor, BitVec.getLsbD_ushiftRight, Nat.add_comm 1 i, ← getLsbD_lfsrMask i hi]
  cases a.getLsbD 0
  · simp
  · rfl

/-- The shift clears bit 15 and the mask holds it, so bit 15 keeps the bit that was dropped. -/
theorem getLsbD_lfsrStep_top (a : Half) : (lfsrStep a).getLsbD 15 = a.getLsbD 0 := by
  rw [getLsbD_lfsrStep a (by decide), BitVec.getLsbD_of_ge a 16 le_rfl]
  simp

/-- Bit 15 of the common image gives back bit 0, so the same mask was toggled in and the other bits agree as well. -/
theorem lfsrStep_injective : Function.Injective lfsrStep := by
  intro a b h
  have h0 : a.getLsbD 0 = b.getLsbD 0 := by rw [← getLsbD_lfsrStep_top a, h, getLsbD_lfsrStep_top]
  refine BitVec.eq_of_getLsbD_eq fun i hi => ?_
  cases i with
  | zero => exact h0
  | succ j =>
    have hj := congrArg (BitVec.getLsbD · j) h
    simp only [getLsbD_lfsrStep _ (show j < 16 by omega), h0] at hj
    exact Bool.xor_left_inj.mp hj

/-- Settles O9: each bit from the shift and the mask; the image keeps the dropped bit in bit 15, so no two states meet. -/
theorem lfsrPermutesNonZero : Obligations.LfsrPermutesNonZero :=
  fun a _ => ⟨fun _ hi => getLsbD_lfsrStep a hi, lfsrStep_ne_zero, fun h => lfsrStep_injective h⟩

/-! ### The comparison (R144) -/

theorem shouldDrop_eq_true_iff {p : BitVec 17} {u : Half} : shouldDrop p u = true ↔ u.toNat < p.toNat :=
  decide_eq_true_iff

theorem shouldDrop_eq_false_iff {p : BitVec 17} {u : Half} : shouldDrop p u = false ↔ p.toNat ≤ u.toNat :=
  decide_eq_false_iff_not.trans Nat.not_lt

/-- In LFSR mode the sample is the LFSR's next state, so it is not 0 (R143). -/
theorem drawSample_lfsr_ne_zero {a u l : Half} {smp : Option Half} (ha : a ≠ 0#16)
    (h : drawSample false a smp = some (u, l)) : u ≠ 0#16 := by
  obtain ⟨-, rfl, -⟩ | ⟨hext, -, -⟩ := drawSample_some h
  · exact lfsrStep_ne_zero ha
  · cases hext

/-- Settles O10: the two extremes are below and above every 16-bit sample, and 1 is above 0 only, which the LFSR never
gives. -/
theorem gateCompares : Obligations.GateCompares := by
  refine fun p u => ⟨shouldDrop_eq_true_iff, ?_, ?_, fun a l ha h => ?_⟩
  · exact shouldDrop_eq_false_iff.mpr (Nat.zero_le _)
  · exact shouldDrop_eq_true_iff.mpr u.isLt
  · have hu : u ≠ 0#16 := drawSample_lfsr_ne_zero ha h
    exact shouldDrop_eq_false_iff.mpr (BitVec.toNat_pos_of_ne_zero hu)

end Sys2Proof.Machine
end

section
/-! PROOFS. The steps of SE by themselves (42_sender.md R163 to R169), each with its exact next state: one lemma per answer
of the environment says what the transition does with it, and the statements read the rows by these lemmas. -/

namespace Sys2Proof.Machine

/-! ### S_READ (R163, R164) -/

section
variable {s : State}

theorem seSourceEnd_of_empty {len : BitVec 7} (hs : s.se.state = .read) (h : len = 0#7) :
    seSourceEnd len s = { s with se := { s.se with state := .eot } } := by
  rw [seSourceEnd, if_pos hs, if_pos (by rw [h]; rfl)]

theorem seSourceEnd_of_oversize {len : BitVec 7} (hs : s.se.state = .read) (h : 80 < len.toNat) :
    seSourceEnd len s = raiseFault .se .payloadTooLarge s := by
  rw [seSourceEnd, if_pos hs, if_neg (by omega), if_pos h]

theorem seChunk_of_chunk {b : List Byte} (hs : s.se.state = .read) (h1 : 1 ≤ b.length) (h80 : b.length ≤ 80) :
    seChunk b s = { s with se := { loadFrame (frameBytes s.se.seq b) s.se with
      generated := s.se.generated + 1#32, state := .send } } := by
  simp only [seChunk, hs, h1, and_self, if_true, encodeFrame_eq_ok_iff.mpr ⟨h80, rfl⟩]

end

/-- A loaded frame counts its header and its payload (R164, R169). -/
theorem loadFrame_frameBytes (q : Bit) (p : List Byte) (se : Sender) : loadFrame (frameBytes q p) se = { se with
    txbuf := frameBytes q p ++ se.txbuf.drop (frameBytes q p).length, txlen := BitVec.ofNat 7 (4 + p.length) } := by
  rw [← frameBytes_length q p]
  rfl

/-- Settles O27: the two answers that are no chunk exclude each other. -/
theorem sourceEndOrOversize : Obligations.SourceEndOrOversize :=
  fun _ _ _ hs => ⟨fun h => next_eq_of_eq (seSourceEnd_of_empty hs h),
    fun h => next_eq_of_eq (seSourceEnd_of_oversize hs h)⟩

/-- Settles O28: the chunk is encoded, and the frame that was loaded is the frame in flight. -/
theorem chunkIsFramed : Obligations.ChunkIsFramed := by
  intro b s hs h1 h80
  refine ⟨frameBytes s.se.seq b, encodeFrame_eq_ok_iff.mpr ⟨h80, rfl⟩, next_eq_of_eq ?_, ?_⟩
  · rw [seChunk_of_chunk hs h1 h80, loadFrame_frameBytes]
  · have hload := txFrame_loadFrame (f := frameBytes s.se.seq b) s.se (by rw [frameBytes_length]; omega)
    rwa [loadFrame_frameBytes] at hload

/-! ### S_SEND (R165) -/

section
variable {u l : Half} {r : Resp} {s : State}

theorem sendWith_of_drop (h : u.toNat < s.se.lossP.toNat) : sendWith u l r s = { s with se := armWait { s.se with
    lfsr := l, txAttempts := s.se.txAttempts + 1#32, dropped := s.se.dropped + 1#32 } } :=
  if_pos (shouldDrop_eq_true_iff.mpr h)

theorem sendWith_ok_of_pass (h : s.se.lossP.toNat ≤ u.toNat) : sendWith u l .ok s = { s with
    chd := s.chd ++ [txFrame s.se]
    se := armWait { s.se with lfsr := l, txAttempts := s.se.txAttempts + 1#32, txOk := s.se.txOk + 1#32 } } :=
  if_neg (by simp [shouldDrop_eq_false_iff.mpr h])

theorem sendWith_err_of_pass (h : s.se.lossP.toNat ≤ u.toNat) : sendWith u l .err s =
    raiseFault .se .txError { s with se := { s.se with lfsr := l, txAttempts := s.se.txAttempts + 1#32 } } :=
  if_neg (by simp [shouldDrop_eq_false_iff.mpr h])

/-- In external mode an attempt that is offered no sample waits (41_loss_gate.md R143; log 5). -/
theorem sendAttempt_of_no_sample (h : s.se.sampleExt = true) : sendAttempt none r s = s := by
  simp only [sendAttempt, seSample, drawSample, h, if_true, ite_self]

end

/-- Settles O29: the sample decides whether the gate drops the frame, and CHD's answer what becomes of a passed one. -/
theorem sendAttemptOutcomes : Obligations.SendAttemptOutcomes := by
  intro smp r u l s hs
  refine ⟨fun hu => ⟨fun hdrop => ?_, fun hpass => ⟨?_, ?_⟩⟩, fun hext => ?_⟩
  · exact next_eq_of_eq ((sendAttempt_of_sample r hs hu).trans (sendWith_of_drop hdrop))
  · exact next_eq_of_eq ((sendAttempt_of_sample .ok hs hu).trans (sendWith_ok_of_pass hpass))
  · exact next_eq_of_eq ((sendAttempt_of_sample .err hs hu).trans (sendWith_err_of_pass hpass))
  · exact next_eq_of_eq (sendAttempt_of_no_sample hext)

/-! ### S_WAIT (R166, R167) -/

section
variable {s : State}

theorem seRecv_err (hs : s.se.state = .wait) : seRecv .err s = raiseFault .se .rxError s := if_pos hs

theorem seRecv_of_delivered {i : Nat} {keep : Bool} {d : Datagram} {q : List Datagram} {k : AckClass}
    (hs : s.se.state = .wait) (hd : deliverAt s.params.channelMode s.cha i keep = some (d, q))
    (hc : InAckClass s.se.seq d k) : seRecv (.dgram i keep) s = ackTaken k q s := by
  simp only [seRecv, hs, if_true, hd, seTake_eq, ackClass_eq_iff.mpr hc]

theorem seExpire_of_expired (hs : s.se.state = .wait) (hx : s.se.texp = true) : seExpire s =
    { s with se := { s.se with timeouts := s.se.timeouts + 1#32, texp := false, state := .send } } :=
  if_pos ⟨hs, hx⟩

theorem seExpire_of_not_expired (hx : s.se.texp = false) : seExpire s = s :=
  if_neg (by simp [hx])

end

/-- Settles O31: a delivered datagram meets the condition of one ACK class, and is taken as its class is. -/
theorem waitTakesAck : Obligations.WaitTakesAck := by
  intro i keep d q s hs
  refine ⟨next_eq_of_eq (seRecv_err hs), fun hd => ?_⟩
  have act {k : AckClass} (hc : InAckClass s.se.seq d k) := next_eq_of_eq (seRecv_of_delivered hs hd hc)
  exact ⟨fun h => act (k := .malformed) h, fun h => act (k := .hit) h, fun h2 hne => act (k := .mismatch) ⟨h2, hne⟩⟩

/-- Settles O33: the expiry is the step's guard. -/
theorem timeoutRetransmits : Obligations.TimeoutRetransmits :=
  fun _ hs => ⟨fun hx => next_eq_of_eq (seExpire_of_expired hs hx),
    fun hx => next_eq_of_eq (seExpire_of_not_expired hx)⟩

/-! ### S_EOT and S_NOTFOUND (R168, R169), by the step row and by the message row (log 13) -/

section
variable {s : State}

theorem sendEot_ok (hs : s.se.state = .eot) : sendEot .ok s = { s with
    chd := s.chd ++ [encodeEot s.se.seq], se := { s.se with state := .done } } := if_pos hs

theorem sendEot_err (hs : s.se.state = .eot) : sendEot .err s = raiseFault .se .txError s := if_pos hs

/-- The message row with SE's own sequence bit is the step. -/
theorem exec_eot_rows (r : Resp) : ∀ i ∈ [Instr.seEot r, .txEot s.se.seq r], exec i s = .next (sendEot r s) :=
  List.forall_mem_cons.mpr ⟨rfl, List.forall_mem_singleton.mpr (next_eq_of_eq (if_pos rfl))⟩

theorem exec_txEot_of_other_seq {q : Bit} (r : Resp) (h : s.se.seq ≠ q) : exec (.txEot q r) s = .next s :=
  next_eq_of_eq (if_neg h)

theorem sendNotice_ok (hs : s.se.state = .notFound) : sendNotice .ok s = { s with
    chd := s.chd ++ [noticeFrame s]
    se := { loadFrame (noticeFrame s) s.se with seq := s.se.seq ^^^ 1#1, state := .eot } } := if_pos hs

theorem sendNotice_err (hs : s.se.state = .notFound) : sendNotice .err s =
    raiseFault .se .txError { s with se := loadFrame (noticeFrame s) s.se } := if_pos hs

/-- The message row with the length of the message, which fits the 16 bits of the header, and the sequence bit 0 is the step
(30_encoding.md R95). -/
theorem exec_notice_rows (r : Resp) :
    ∀ i ∈ [Instr.seNotfound r, .txNotfound (BitVec.ofNat 16 s.params.notFoundMsg.bytes.length) r],
      i = .seNotfound r ∨ s.se.seq = 0#1 → exec i s = .next (sendNotice r s) := by
  have hlen : s.params.notFoundMsg.bytes.length = (BitVec.ofNat 16 s.params.notFoundMsg.bytes.length).toNat := by
    have := s.params.notFoundMsg.short
    rw [BitVec.toNat_ofNat]
    omega
  refine List.forall_mem_cons.mpr ⟨fun _ => rfl, List.forall_mem_singleton.mpr fun hq => ?_⟩
  exact next_eq_of_eq (if_pos ⟨hlen, hq.resolve_left nofun⟩)

end

/-- Settles O34: CHD's answer decides, by either row; with the other sequence bit the message row waits. -/
theorem eotIsSentOnce : Obligations.EotIsSentOnce := by
  intro s hs
  have hother : s.se.seq ≠ s.se.seq ^^^ 1#1 := (bit_eq_iff_ne_flip _ _).mp rfl
  rw [← encodeEot_eq]
  exact ⟨fun i hi => (exec_eot_rows .ok i hi).trans (next_eq_of_eq (sendEot_ok hs)),
    fun i hi => (exec_eot_rows .err i hi).trans (next_eq_of_eq (sendEot_err hs)),
    fun r => exec_txEot_of_other_seq r hother⟩

/-- Settles O35: the notice is loaded, and CHD's answer decides, by either row; the default notice is evaluated. -/
theorem noticeIsSentOnce : Obligations.NoticeIsSentOnce := by
  intro s hs
  have hload : loadFrame (noticeFrame s) s.se = _ := loadFrame_frameBytes s.se.seq s.params.notFoundMsg.bytes s.se
  have hok := sendNotice_ok hs
  have herr := sendNotice_err hs
  rw [hload] at hok herr
  refine ⟨noticeFrame s, encodeFrame_eq_ok_iff.mpr ⟨s.params.notFoundMsg.short, rfl⟩,
    fun i hi hq => (exec_notice_rows .ok i hi hq).trans (next_eq_of_eq hok),
    fun i hi hq => (exec_notice_rows .err i hi hq).trans (next_eq_of_eq herr), fun hq hm => ?_⟩
  rw [noticeFrame, hq, hm]
  rfl

end Sys2Proof.Machine
end

section
/-! PROOFS. The bounded wait of SE: the derived timeout (42_sender.md R161, R162) and the timebase (R170, R171). -/

namespace Sys2Proof.Machine

/-! ### The derived timeout -/

/-- The rows of R162's table: the exponent, TO_SEC, TO_SUB and the effective wait. -/
def timeoutRows : List (Nat × Nat × Nat × Nat) :=
  [(0, 0, 0, 0), (1, 0, 0, 0), (2, 0, 0, 0), (3, 0, 1, 1), (4, 0, 10, 10), (5, 0, 100, 100),
    (6, 1, 0, 10 ^ 6), (7, 10, 0, 10 ^ 7), (8, 100, 0, 10 ^ 8), (9, 1000, 0, 10 ^ 9), (10, 10 ^ 4, 0, 10 ^ 10),
    (11, 10 ^ 5, 0, 10 ^ 11), (12, 10 ^ 6, 0, 10 ^ 12), (13, 10 ^ 7, 0, 10 ^ 13), (14, 10 ^ 8, 0, 10 ^ 14),
    (15, 10 ^ 9, 0, 10 ^ 15)]

/-- Each row by R161's arithmetic; every wait fits the 64-bit timer. -/
theorem timeoutRows_spec : ∀ row ∈ timeoutRows,
    10 ^ row.1 / 1000 / 1000 % 2 ^ 32 = row.2.1 ∧ 10 ^ row.1 / 1000 % 1000 % 2 ^ 10 = row.2.2.1 ∧
      row.2.1 * 1000000 + row.2.2.1 = row.2.2.2 ∧ row.2.2.2 < 2 ^ 64 := by
  decide

theorem seRunning_eq_false_iff {st : SeState} : seRunning st = false ↔ st = .idle ∨ st = .done ∨ st = .fault := by
  cases st <;> decide

/-- A session begins with the timeout of its exponent (45_host_commands.md R253). -/
theorem startSe_timeout {s : State} (h : seRunning s.se.state = false) :
    (startSe s).se.toSec = BitVec.ofNat 32 (timeoutMs s.se.toExp / 1000) ∧
      (startSe s).se.toSub = BitVec.ofNat 10 (timeoutMs s.se.toExp % 1000) := by
  rw [startSe, if_neg (by simp [h])]
  exact ⟨rfl, rfl⟩

/-- Settles O19: START derives the row's seconds and milliseconds, whose ticks the armed timer holds without a wrap. -/
theorem timeoutTable : Obligations.TimeoutTable := by
  rintro hi s e sec sub d hrow rfl hst
  obtain ⟨hsec, hsub, hwait, hfits⟩ := timeoutRows_spec _ hrow
  obtain ⟨htoSec, htoSub⟩ := startSe_timeout (seRunning_eq_false_iff.mpr hst)
  have hs : (startSe s).se.toSec.toNat = sec := by rw [htoSec, BitVec.toNat_ofNat]; exact hsec
  have hu : (startSe s).se.toSub.toNat = sub := by rw [htoSub, BitVec.toNat_ofNat]; exact hsub
  have hd : effWait (startSe s).se = d := by rw [effWait, hs, hu]; exact hwait
  refine ⟨_, rfl, hs, hu, hd, ?_⟩
  simp only [respond_se, armWait_tmr, hd, BitVec.toNat_ofNat]
  exact Nat.mod_eq_of_lt hfits

/-! ### The timebase -/

section
variable {z : ZeroTimeout} {se : Sender}

/-- A pulse above 1 counts down. -/
theorem tickOnce_of_one_lt (hw : se.state = .wait) (h : 1 < se.tmr.toNat) :
    tickOnce z se = { se with tmr := se.tmr - 1#64 } := by
  have h0 : se.tmr ≠ 0#64 := by bv_omega
  have h1 : se.tmr ≠ 1#64 := by bv_omega
  simp only [tickOnce, hw, if_true, ne_eq, h0, not_false_iff, h1, if_false]

/-- The pulse at 1 marks the expiry. -/
theorem tickOnce_of_one (hw : se.state = .wait) (h : se.tmr = 1#64) :
    tickOnce z se = { se with tmr := 0#64, texp := true } := by
  simp [tickOnce, hw, h]

/-- A pulse at 0 expires at once or never. -/
theorem tickOnce_of_zero (hw : se.state = .wait) (h : se.tmr = 0#64) :
    tickOnce z se = { se with texp := if z = .nextTick then true else se.texp } := by
  unfold tickOnce
  rw [if_pos hw, if_neg (not_not_intro h)]
  cases z <;> rfl

/-- What one pulse leaves, any number leaves. -/
theorem tickMany_of_fixed (h : tickOnce z se = se) (k : Nat) : tickMany z k se = se :=
  tickMany_keeps (P := (· = se)) z (by rintro _ rfl; exact h) k se rfl

/-- At 0 a pulse changes nothing where the expiry stands, or never comes. -/
theorem tickOnce_fixed (hw : se.state = .wait) (h : se.tmr = 0#64) (hx : z = .nextTick → se.texp = true) :
    tickOnce z se = se := by
  have hif : (if z = .nextTick then true else se.texp) = se.texp := ite_eq_right_iff.mpr fun hz => (hx hz).symm
  rw [tickOnce_of_zero hw h, hif]

theorem tickMany_of_lt {k : Nat} (hw : se.state = .wait) (hk : k < se.tmr.toNat) :
    tickMany z k se = { se with tmr := BitVec.ofNat 64 (se.tmr.toNat - k) } := by
  induction k generalizing se with
  | zero => simp [tickMany]
  | succ k ih =>
    have hpred : (se.tmr - 1#64).toNat = se.tmr.toNat - 1 := by bv_omega
    rw [tickMany, tickOnce_of_one_lt hw (by omega), ih (se := { se with tmr := se.tmr - 1#64 }) hw (by dsimp only; omega)]
    simp only [hpred, Nat.sub_sub, Nat.add_comm 1 k]

theorem tickMany_of_le {k : Nat} (hw : se.state = .wait) (h0 : se.tmr ≠ 0#64) (hk : se.tmr.toNat ≤ k) :
    tickMany z k se = { se with tmr := 0#64, texp := true } := by
  induction k generalizing se with
  | zero => bv_omega
  | succ k ih =>
    rw [tickMany]
    by_cases h1 : se.tmr = 1#64
    · rw [tickOnce_of_one hw h1]
      exact tickMany_of_fixed (tickOnce_fixed (se := { se with tmr := 0#64, texp := true }) hw rfl fun _ => rfl) k
    · rw [tickOnce_of_one_lt hw (by bv_omega)]
      exact ih (se := { se with tmr := se.tmr - 1#64 }) hw (by bv_omega) (by bv_omega)

theorem tickMany_of_zero {k : Nat} (hw : se.state = .wait) (h : se.tmr = 0#64) (hk : 1 ≤ k) :
    tickMany z k se = { se with texp := if z = .nextTick then true else se.texp } := by
  obtain ⟨k, rfl⟩ := Nat.exists_eq_add_of_le' hk
  rw [tickMany, tickOnce_of_zero hw h]
  exact tickMany_of_fixed (tickOnce_fixed (se := { se with texp := if z = .nextTick then true else se.texp }) hw h
    fun hz => if_pos hz) k

end

/-- Settles O36: fewer pulses than the timer count down, more reach the expiry, which stands; at 0 the parameter decides. -/
theorem tickCountsDown : Obligations.TickCountsDown := by
  intro k s
  have ticks {se : Sender} (h : tickMany s.params.zeroTimeout k s.se = se) : exec (.tick k) s = .next { s with se := se } :=
    h ▸ rfl
  exact ⟨fun hs => ticks (tickMany_idle hs k), fun hw hk => ticks (tickMany_of_lt hw hk),
    fun hw h0 hk => ticks (tickMany_of_le hw h0 hk), fun hw h0 hk => ticks (tickMany_of_zero hw h0 hk)⟩

end Sys2Proof.Machine
end

section
/-! PROOFS. Steps that are not enabled (00_scope.md R12, 42_sender.md R175, 43_receiver.md R205; log 5): the guard of every
transition is its home state, and a home is a state in which the engine runs. -/

namespace Sys2Proof.Machine

/-! ### The homes -/

/-- A step of SE, and a tick, has a home in which SE runs (10_state.md R27). -/
theorem seRunning_of_seHome {i : Instr} {h : SeState} (hi : seHome i = some h) : seRunning h = true := by
  cases i <;> cases hi <;> rfl

/-- A step of RE has a home in which RE runs. -/
theorem reRunning_of_reHome {i : Instr} {h : ReState} (hi : reHome i = some h) : reRunning h = true := by
  cases i <;> cases hi <;> rfl

theorem not_terminal_of_seRunning {st : SeState} (h : seRunning st = true) :
    st ≠ .idle ∧ st ≠ .done ∧ st ≠ .fault := by
  cases st <;> simp [seRunning] at h ⊢

theorem not_terminal_of_reRunning {st : ReState} (h : reRunning st = true) :
    st ≠ .idle ∧ st ≠ .done ∧ st ≠ .fault ∧ st ≠ .reserved6 ∧ st ≠ .reserved7 := by
  cases st <;> simp [reRunning] at h ⊢

/-! ### Outside its home a step waits -/

section
variable {s : State}

/-- A row that adds a condition of its own to a transition waits where the transition does. -/
theorem next_ite_of_eq {c : Prop} [Decidable c] {t : State} (h : t = s) :
    (.next (if c then t else s) : Host.Outcome State Fault Refusal) = .next s :=
  next_eq_of_eq (by rw [h, ite_self])

theorem exec_waits_outside_seHome {i : Instr} {h : SeState} (hi : seHome i = some h) (hs : s.se.state ≠ h) :
    exec i s = .next s := by
  cases i <;> cases hi
  case ackMalformed => exact next_eq_of_eq (if_neg fun hc => hs hc.1)
  case ackMatch => exact next_eq_of_eq (if_neg fun hc => hs hc.1)
  case ackMismatch => exact next_eq_of_eq (if_neg fun hc => hs hc.1)
  case txData => exact next_ite_of_eq (if_neg hs)
  case txEot => exact next_ite_of_eq (if_neg hs)
  case txNotfound => exact next_ite_of_eq (if_neg hs)
  case seReadEnd => exact next_eq_of_eq (if_neg hs)
  case seReadChunk => exact next_eq_of_eq (if_neg fun hc => hs hc.1)
  case seSend => exact next_eq_of_eq (if_neg hs)
  case seWaitRx => exact next_eq_of_eq (if_neg hs)
  case seWaitTimeout => exact next_eq_of_eq (if_neg fun hc => hs hc.1)
  case seEot => exact next_eq_of_eq (if_neg hs)
  case seNotfound => exact next_eq_of_eq (if_neg hs)
  case tick k => exact next_eq_of_eq (congrArg (fun se => { s with se := se }) (tickMany_idle hs k))

theorem exec_waits_outside_reHome {i : Instr} {h : ReState} (hi : reHome i = some h) (hs : s.re.state ≠ h) :
    exec i s = .next s := by
  cases i <;> cases hi
  case frameShort => exact next_eq_of_eq (if_neg fun hc => hs hc.1)
  case frameEot => exact next_eq_of_eq (if_neg fun hc => hs hc.1)
  case frameOverlong => exact next_eq_of_eq (if_neg fun hc => hs hc.1)
  case frameDataMatch => exact next_eq_of_eq (if_neg fun hc => hs hc.1)
  case frameDataDup => exact next_eq_of_eq (if_neg fun hc => hs hc.1)
  case txAck => exact next_ite_of_eq (if_neg hs)
  case reWait => exact next_eq_of_eq (if_neg hs)
  case reWaitData => exact next_eq_of_eq (if_neg hs)
  case reDeliver => exact next_eq_of_eq (if_neg hs)
  case reAck => exact next_eq_of_eq (if_neg hs)

end

/-- Settles O43: each transition is guarded by its home state, and no home is a state in which the engine does not run. -/
theorem stepWaitsOutsideItsState : Obligations.StepWaitsOutsideItsState :=
  fun _ _ => ⟨fun _ => exec_waits_outside_seHome, fun _ => exec_waits_outside_reHome,
    fun _ hi => not_terminal_of_seRunning (seRunning_of_seHome hi),
    fun _ hi => not_terminal_of_reRunning (reRunning_of_reHome hi), rfl⟩

end Sys2Proof.Machine
end

section
/-! PROOFS. What every step keeps of SE's session (42_sender.md R160, R173, R174) and how both state registers move
(10_state.md R24, 43_receiver.md R200). A step makes a move of the engine, begins its session, resets it, or leaves its
session alone. -/

namespace Sys2Proof.Machine

/-! ### The session of an engine in one step -/

/-- SE's session stands: the state register, the bit, the frame in flight and the derived timeout. -/
structure SeSessionKept (a b : Sender) : Prop where
  state : b.state = a.state
  seq : b.seq = a.seq
  txbuf : b.txbuf = a.txbuf
  txlen : b.txlen = a.txlen
  toSec : b.toSec = a.toSec
  toSub : b.toSub = a.toSub

/-- What can become of SE where it makes no move itself: its session stands, one begins (45_host_commands.md R253), or a
reset ends it (R255, 70_reset_and_hazards.md R310). -/
inductive SeOutside (a b : Sender) : Prop
  | kept (h : SeSessionKept a b)
  | started (h : seRunning a.state = false) (hst : b.state = .read ∨ b.state = .notFound) (hq : b.seq = 0#1)
  | reset (hst : b.state = .idle) (hq : b.seq = 0#1)

/-- What can become of RE's state register where RE makes no move itself (45_host_commands.md R254, R256). -/
inductive ReOutside (a b : Receiver) : Prop
  | kept (h : b.state = a.state)
  | started (h : reStartable a.state = true) (hst : b.state = .wait)
  | reset (hst : b.state = .idle)

theorem SeSessionKept.refl (a : Sender) : SeSessionKept a a := ⟨rfl, rfl, rfl, rfl, rfl, rfl⟩

/-- Ticks write the timer and the expiry only (R170). -/
theorem tickMany_keeps_session (z : ZeroTimeout) (k : Nat) (se : Sender) : SeSessionKept se (tickMany z k se) := by
  obtain ⟨tmr, texp, he⟩ := tickMany_frame z k se
  rw [he]
  exact ⟨rfl, rfl, rfl, rfl, rfl, rfl⟩

theorem SeOutside.of_eq {a b : Sender} (h : b = a) : SeOutside a b := .kept (h ▸ .refl b)

theorem ReOutside.of_eq {a b : Receiver} (h : b = a) : ReOutside a b := .kept (h ▸ rfl)

section
variable {s t : State}

/-- A write to a configuration register leaves both sessions (R258). -/
theorem writeCfg_keeps_sessions (r : CfgReg) (v : Word) (s : State) :
    SeSessionKept s.se (writeCfg r v s).se ∧ (writeCfg r v s).re.state = s.re.state := by
  have same : SeSessionKept s.se s.se ∧ s.re.state = s.re.state := ⟨.refl _, rfl⟩
  cases r
  case sIrq => exact ⟨⟨rfl, rfl, rfl, rfl, rfl, rfl⟩, rfl⟩
  case rIrq => exact same
  all_goals
    unfold writeCfg
    dsimp only
    split
    · exact same
    · exact ⟨⟨rfl, rfl, rfl, rfl, rfl, rfl⟩, rfl⟩

theorem HostMove.outside (m : HostMove s t) : SeOutside s.se t.se ∧ ReOutside s.re t.re := by
  cases m with
  | inert => exact ⟨.of_eq rfl, .of_eq rfl⟩
  | startsSe h st hst => exact ⟨.started h hst rfl, .of_eq rfl⟩
  | startsRe h => exact ⟨.of_eq rfl, .started h rfl⟩
  | resetsSe => exact ⟨.reset rfl rfl, .of_eq rfl⟩
  | resetsRe => exact ⟨.of_eq rfl, .reset rfl⟩
  | configures r v =>
    obtain ⟨hse, hre⟩ := writeCfg_keeps_sessions r v s
    exact ⟨.kept hse, .kept hre⟩

theorem EnvMove.outside (m : EnvMove s t) : SeOutside s.se t.se ∧ ReOutside s.re t.re := by
  cases m with
  | loses c i => cases c <;> exact ⟨.of_eq rfl, .of_eq rfl⟩
  | resets => exact ⟨.reset rfl rfl, .reset rfl⟩
  | empties => exact ⟨.of_eq rfl, .of_eq rfl⟩
  | attaches => exact ⟨.of_eq rfl, .of_eq rfl⟩

/-- Everything a step can do to SE's session. -/
theorem step_se_cases (h : step s = .next t) : SeMove (popEvent s) t ∨ SeOutside s.se t.se := by
  obtain rfl | m | m | ⟨b, u, rfl, m⟩ | m := step_moves h
  · exact .inr (.of_eq rfl)
  · exact .inl m
  · exact .inr (.of_eq m.keeps_rest.1)
  · exact .inr m.outside.1
  · exact .inr m.outside.1

/-- Everything a step can do to RE's state register. -/
theorem step_re_cases (h : step s = .next t) : ReMove (popEvent s) t ∨ ReOutside s.re t.re := by
  obtain rfl | m | m | ⟨b, u, rfl, m⟩ | m := step_moves h
  · exact .inr (.of_eq rfl)
  · exact .inr (.of_eq m.keeps_rest.1)
  · exact .inl m
  · exact .inr m.outside.2
  · exact .inr m.outside.2

end

/-! ### The arcs of the state registers -/

/-- The arcs of SE (42_sender.md R160). -/
def seArcs : List (SeState × SeState) :=
  [(.idle, .read), (.idle, .notFound), (.done, .read), (.done, .notFound), (.fault, .read), (.fault, .notFound),
    (.read, .eot), (.read, .fault), (.read, .send), (.send, .wait), (.send, .fault), (.wait, .read), (.wait, .send),
    (.wait, .fault), (.eot, .done), (.eot, .fault), (.notFound, .eot), (.notFound, SeState.fault)]

/-- The arcs of RE (43_receiver.md R200). -/
def reArcs : List (ReState × ReState) :=
  [(.idle, .wait), (.done, .wait), (.fault, .wait), (.wait, .done), (.wait, .fault), (.wait, .deliver), (.wait, .ack),
    (.deliver, .ack), (.ack, .wait), (.ack, ReState.fault)]

section
variable {s t : State}

/-- A start of SE is an arc from each state in which SE does not run. -/
theorem start_mem_seArcs {a b : SeState} (ha : seRunning a = false) (hb : b = .read ∨ b = .notFound) :
    (a, b) ∈ seArcs := by
  obtain rfl | rfl | rfl := seRunning_eq_false_iff.mp ha <;> obtain rfl | rfl := hb <;> decide

theorem start_mem_reArcs {a : ReState} (ha : reStartable a = true) : (a, ReState.wait) ∈ reArcs := by
  cases a <;> cases ha <;> decide

/-- A move of SE goes along an arc; ticks stay. -/
theorem SeMove.arc (m : SeMove s t) : t.se.state = s.se.state ∨ (s.se.state, t.se.state) ∈ seArcs := by
  cases m with
  | ticks k h => exact .inl (tickMany_keeps_session _ k s.se).state
  | _ h => exact .inr (by simp [h, seArcs])

/-- A move of RE goes along an arc. -/
theorem ReMove.arc (m : ReMove s t) : (s.re.state, t.re.state) ∈ reArcs := by
  cases m with
  | _ h => simp [h, reArcs]

end

/-- Settles O53: a move goes along an arc of its table, a START along an arc to the first state of a session, and a reset to
IDLE. -/
theorem stateRegisterArcs : Obligations.StateRegisterArcs := by
  refine fun s t h => ⟨?_, ?_⟩
  · obtain m | hkept | ⟨ha, hst, -⟩ | ⟨hidle, -⟩ := step_se_cases h
    · exact m.arc.imp_right .inr
    · exact .inl hkept.state
    · exact .inr (.inr (start_mem_seArcs ha hst))
    · exact .inr (.inl hidle)
  · obtain m | hkept | ⟨ha, hst⟩ | hidle := step_re_cases h
    · exact .inr (.inr m.arc)
    · exact .inl hkept
    · exact .inr (.inr (by rw [hst]; exact start_mem_reArcs ha))
    · exact .inr (.inl hidle)

/-! ### The sequence bit and the frame in flight -/

/-- SE has a chunk in flight (R173). -/
def InFlight (st : SeState) : Prop := st = .send ∨ st = .wait

section
variable {s t : State}

/-- A move of SE toggles SE.SEQ on an accepted ACK and with the notice, and else leaves it (R166, R169). -/
theorem SeMove.seq_cases (m : SeMove s t) : t.se.seq = s.se.seq ∨
    (t.se.seq = s.se.seq ^^^ 1#1 ∧ s.se.state = .wait ∧ t.se.state = .read ∧ t.se.acked = s.se.acked + 1#32) ∨
    (t.se.seq = s.se.seq ^^^ 1#1 ∧ s.se.state = .notFound ∧ t.se.state = .eot) := by
  cases m with
  | ackHit h => exact .inr (.inl ⟨rfl, h, rfl, rfl⟩)
  | noticeSent h => exact .inr (.inr ⟨rfl, h, rfl⟩)
  | ticks k h => exact .inl (tickMany_keeps_session _ k s.se).seq
  | _ => exact .inl rfl

/-- Between S_SEND and S_WAIT no move touches SE.SEQ or the buffer: a frame is loaded in S_READ and S_NOTFOUND only. -/
theorem SeMove.keeps_frame (m : SeMove s t) (hs : InFlight s.se.state) (ht : InFlight t.se.state) :
    t.se.seq = s.se.seq ∧ t.se.txbuf = s.se.txbuf ∧ t.se.txlen = s.se.txlen := by
  cases m with
  | chunk h => simp [InFlight, h] at hs
  | ackHit h => simp [InFlight] at ht
  | noticeErr h => simp [InFlight, h] at hs
  | noticeSent h => simp [InFlight, h] at hs
  | ticks k h =>
    have hkept := tickMany_keeps_session s.params.zeroTimeout k s.se
    exact ⟨hkept.seq, hkept.txbuf, hkept.txlen⟩
  | _ => exact ⟨rfl, rfl, rfl⟩

end

/-- Settles O55: only the moves that R174 names toggle the bit, and a START or a reset puts it to 0. -/
theorem sequenceBitFlipsOnAcceptance : Obligations.SequenceBitFlipsOnAcceptance := by
  intro s t h
  obtain m | hkept | ⟨ha, hst, hq⟩ | ⟨hidle, hq⟩ := step_se_cases h
  · exact m.seq_cases.imp_right (Or.imp_right .inl)
  · exact .inl hkept.seq
  · have hrun : seRunning t.se.state = true := by rcases hst with hst | hst <;> rw [hst] <;> rfl
    exact .inr (.inr (.inr ⟨hq, .inr ⟨ha, hrun⟩⟩))
  · exact .inr (.inr (.inr ⟨hq, .inl hidle⟩))

/-- Settles O56: a move keeps the frame and the derived timeout; a START is ignored in flight, a reset leads out of it. -/
theorem frameInFlightIsKept : Obligations.FrameInFlightIsKept := by
  intro s t h hs ht
  obtain m | hkept | ⟨ha, -, -⟩ | ⟨hidle, -⟩ := step_se_cases h
  · obtain ⟨hseq, hbuf, hlen⟩ := m.keeps_frame hs ht
    obtain ⟨-, -, -, -, -, -, -, hsec, hsub⟩ := m.keeps_configuration
    exact ⟨hseq, hbuf, hlen, hsec, hsub⟩
  · exact ⟨hkept.seq, hkept.txbuf, hkept.txlen, hkept.toSec, hkept.toSub⟩
  · rcases hs with hs | hs <;> rw [hs] at ha <;> cases ha
  · simp [hidle] at ht

end Sys2Proof.Machine
end

section
/-! PROOFS. The steps of RE by themselves (43_receiver.md R201 to R204), each with its exact next state, and the chain of
steps that makes a second copy a duplicate (R206). -/

namespace Sys2Proof.Machine

/-! ### R_WAIT (R201, R202) -/

section
variable {s : State} {i : Nat} {keep : Bool} {d : Datagram} {q : List Datagram} {k : FrameClass}

theorem reRecv_err (data : Bool) (hs : s.re.state = .wait) : reRecv data .err s = raiseFault .re .rxError s := if_pos hs

/-- The step row of the datagram's kind takes it as its class is taken. -/
theorem reRecv_of_delivered (hs : s.re.state = .wait) (hd : deliverAt s.params.channelMode s.chd i keep = some (d, q))
    (hc : InFrameClass s.re.expected d k) : reRecv (isDataClass k) (.dgram i keep) s = frameTaken k (rxKept d) q s := by
  simp only [reRecv, hs, if_true, hd, frameClass_eq_iff.mpr hc, reTake_eq]

/-- A frame row that leaves R_WAIT took a datagram of its class. -/
theorem exec_frameRow_taken {t : State} (hx : exec (frameRow k d keep) s = .next t) (hne : t.re.state ≠ s.re.state) :
    InFrameClass s.re.expected d k ∧ ∃ q, t = frameTaken k (rxKept d) q s := by
  have ht : t = reTakeClass k d keep s := Host.Outcome.next.inj (hx.symm.trans (exec_frameRow k d keep s))
  have hmoved : reTakeClass k d keep s ≠ s := fun he => hne (by rw [ht, he])
  by_cases hg : s.re.state = .wait ∧ frameClass s.re.expected (rxKept d) = k
  · refine ⟨frameClass_eq_iff.mp hg.2, ?_⟩
    cases hd : deliverThis s.params.channelMode s.chd d keep with
    | none => exact absurd (reTakeClass_of_not_delivered k (.inr hd)) hmoved
    | some q => exact ⟨q, by simp only [ht, reTakeClass, hg, and_self, if_true, hd, reTake_eq]⟩
  · exact absurd (if_neg hg) hmoved

end

/-- Settles O37: ERR and the classes of rule R201, each taken as its class is. -/
theorem waitTakesEndOrMalformed : Obligations.WaitTakesEndOrMalformed := by
  intro i keep d q s hs
  refine ⟨next_eq_of_eq (reRecv_err false hs), fun hd => ?_⟩
  have act {k : FrameClass} (hc : InFrameClass s.re.expected d k) := next_eq_of_eq (reRecv_of_delivered hs hd hc)
  refine ⟨fun h => ?_, fun h4 hz => act (k := .eot) ⟨h4, hz⟩⟩
  by_cases h4 : d.length < 4
  · exact act (k := .short) h4
  · exact act (k := .overlong) ⟨Nat.not_lt.mp h4, h.resolve_left h4⟩

/-- Settles O38: the two classes of rule R202, told apart by the sequence bit. -/
theorem waitTakesData : Obligations.WaitTakesData := by
  intro i keep d q s hs hd h4 h1 h80
  have act {k : FrameClass} (hc : InFrameClass s.re.expected d k) := next_eq_of_eq (reRecv_of_delivered hs hd hc)
  exact ⟨fun hb => act (k := .dataMatch) ⟨h4, h1, h80, hb⟩, fun hb => act (k := .dataDup) ⟨h4, h1, h80, hb⟩⟩

/-! ### R_DELIVER (R203) -/

/-- In a well-kept R_DELIVER what is handed over is a payload of the frame, its missing bytes any (40_codec.md R123). -/
theorem ReInv.payloadOf {re : Receiver} (h : ReInv re) (hs : re.state = .deliver) (k : Nat) :
    PayloadOf re (rxPayload k re) := by
  obtain ⟨-, h80, -⟩ := h.deliver hs
  exact ⟨rxPayload_length k h.buf h80, fun _ hi hn => rxPayload_getElem k h.buf h80 hi hn⟩

section
variable {s t : State}

/-- The delivery, apart from what the sink does with the payload (20_memory.md R67). -/
theorem deliverPayload_eq (r : Resp) (hs : s.re.state = .deliver) : deliverPayload r s =
    { sinkWrite (rxPayload s.freeCtr s.re) r { s with freeCtr := s.freeCtr + rxMissing s.re } with
      delivered := s.delivered ++ rxPayload s.freeCtr s.re
      re := { s.re with
        sinkErr := s.re.sinkErr || decide (r = .err), expected := s.re.expected ^^^ 1#1
        accepted := s.re.accepted + 1#32, bytes := s.re.bytes + s.re.rlen.setWidth 32, state := .ack } } :=
  if_pos hs

/-- RE hands the payload of its frame over in the step from `s` to `t`, whatever the sink answers (R203). -/
structure HandsOver (s t : State) : Prop where
  state : t.re.state = .ack
  expected : t.re.expected = s.re.expected ^^^ 1#1
  accepted : t.re.accepted = s.re.accepted + 1#32
  bytes : t.re.bytes = s.re.bytes + s.re.rlen.setWidth 32
  rseq : t.re.rseq = s.re.rseq
  delivered : t.delivered = s.delivered ++ rxPayload s.freeCtr s.re

theorem deliverPayload_handsOver (r : Resp) (hs : s.re.state = .deliver) : HandsOver s (deliverPayload r s) := by
  rw [deliverPayload_eq r hs]
  exact ⟨rfl, rfl, rfl, rfl, rfl, rfl⟩

end

/-- Settles O40: where the datagram brought the payload whole no free byte is drawn; in a well-kept machine what is handed
over is a payload of the frame in any case. -/
theorem deliverCountsOkAndErr : Obligations.DeliverCountsOkAndErr := by
  refine fun s hs => ⟨fun hw => ?_, fun hi r => ?_⟩
  · obtain ⟨hm, hp⟩ := rxPayload_whole s.freeCtr hw
    refine ⟨next_eq_of_eq ?_, (deliverPayload .err s).sink, (deliverPayload .err s).freeCtr, next_eq_of_eq ?_⟩
    · rw [deliverPayload_eq .ok hs, hp, hm]
      simp [sinkWrite]
    · rw [deliverPayload_eq .err hs, hp]
      simp
  · refine ⟨rxPayload s.freeCtr s.re, (deliverPayload r s).sink, (deliverPayload r s).freeCtr, hi.2.payloadOf hs _, ?_,
      next_eq_of_eq ?_⟩
    · rintro rfl
      rw [deliverPayload_eq .ok hs]
      rfl
    · rw [deliverPayload_eq r hs]
      simp

/-- Settles O41: the payload handed over has RLEN bytes, which the invariant bounds. -/
theorem bytesCountDeliveredStream : Obligations.BytesCountDeliveredStream := by
  rintro r s _ ⟨-, hi⟩ hs ⟨⟩
  obtain ⟨h1, h80, -⟩ := hi.deliver hs
  obtain ⟨hlen, -⟩ := hi.payloadOf hs s.freeCtr
  have ho := deliverPayload_handsOver r hs
  refine ⟨_, ho.delivered, hlen, h1.trans_eq hlen.symm, hlen.trans_le h80, ?_⟩
  rw [hlen, BitVec.ofNat_toNat]
  exact ho.bytes

/-! ### R_ACK (R204) -/

section
variable {smp : Option Half} {u l : Half} {r : Resp} {s : State}

theorem ackWith_of_drop (h : u.toNat < s.re.lossP.toNat) : ackWith u l r s =
    { s with re := { s.re with lfsr := l, ackDropped := s.re.ackDropped + 1#32, state := .wait } } :=
  if_pos (shouldDrop_eq_true_iff.mpr h)

theorem ackWith_ok_of_pass (h : s.re.lossP.toNat ≤ u.toNat) : ackWith u l .ok s = { s with
    cha := s.cha ++ [encodeAck s.re.rseq]
    re := { s.re with lfsr := l, ackTx := s.re.ackTx + 1#32, state := .wait } } :=
  if_neg (by simp [shouldDrop_eq_false_iff.mpr h])

theorem ackWith_err_of_pass (h : s.re.lossP.toNat ≤ u.toNat) : ackWith u l .err s =
    raiseFault .re .txError { s with re := { s.re with lfsr := l } } :=
  if_neg (by simp [shouldDrop_eq_false_iff.mpr h])

theorem ackAttempt_of_sample (r : Resp) (hs : s.re.state = .ack) (hu : SampleIs s.re.sampleExt s.re.lfsr smp u l) :
    ackAttempt smp r s = ackWith u l r s := by
  simp only [ackAttempt, hs, if_true, reSample, drawSample_of hu]

/-- In external mode an acknowledgment that is offered no sample waits (41_loss_gate.md R143; log 5). -/
theorem ackAttempt_of_no_sample (h : s.re.sampleExt = true) : ackAttempt none r s = s := by
  simp only [ackAttempt, reSample, drawSample, h, if_true, ite_self]

theorem emitsAck_of_sample (hs : s.re.state = .ack) (hu : SampleIs s.re.sampleExt s.re.lfsr smp u l)
    (hp : s.re.lossP.toNat ≤ u.toNat) : emitsAck s.re.rseq smp s = true := by
  simp [emitsAck, hs, reSample, drawSample_of hu, shouldDrop, hp]

/-- Past the gate the message row with RE's own sequence field is the step (log 13). -/
theorem exec_ack_rows (r : Resp) (hs : s.re.state = .ack) (hu : SampleIs s.re.sampleExt s.re.lfsr smp u l)
    (hp : s.re.lossP.toNat ≤ u.toNat) :
    ∀ i ∈ [Instr.reAck smp r, .txAck s.re.rseq smp r], exec i s = .next (ackWith u l r s) := by
  have hack := next_eq_of_eq (ackAttempt_of_sample r hs hu)
  refine List.forall_mem_cons.mpr ⟨hack, List.forall_mem_singleton.mpr ?_⟩
  exact (next_eq_of_eq (if_pos (emitsAck_of_sample hs hu hp))).trans hack

end

/-- Settles O42: the sample decides whether the gate drops the acknowledgment, and CHA's answer what becomes of a passed one,
by either row. -/
theorem acknowledgeOutcomes : Obligations.AcknowledgeOutcomes := by
  intro smp r u l s hs
  refine ⟨fun hu => ⟨fun hdrop => ?_, fun hpass => ⟨fun i hi => ?_, fun i hi => ?_⟩⟩, fun hext => ?_⟩
  · exact next_eq_of_eq ((ackAttempt_of_sample r hs hu).trans (ackWith_of_drop hdrop))
  · exact (exec_ack_rows .ok hs hu hpass i hi).trans (next_eq_of_eq (ackWith_ok_of_pass hpass))
  · exact (exec_ack_rows .err hs hu hpass i hi).trans (next_eq_of_eq (ackWith_err_of_pass hpass))
  · exact next_eq_of_eq (ackAttempt_of_no_sample hext)

/-! ### A second copy (R206) -/

section
variable {s t : State}

/-- RE toggles the expected bit in R_DELIVER only. -/
theorem ReMove.keeps_expected (m : ReMove s t) (hd : s.re.state ≠ .deliver) : t.re.expected = s.re.expected := by
  cases m with
  | delivers h r => exact absurd h hd
  | _ => rfl

/-- Outside R_WAIT the frame being handled stays the same. -/
theorem ReMove.keeps_handled (m : ReMove s t) (hw : s.re.state ≠ .wait) :
    t.re.rlen = s.re.rlen ∧ t.re.rseq = s.re.rseq := by
  cases m with
  | takesNew h => exact absurd h hw
  | takesDup h => exact absurd h hw
  | _ => exact ⟨rfl, rfl⟩

theorem ackAttempt_keeps (smp : Option Half) (r : Resp) (hs : s.re.state = .ack) :
    (ackAttempt smp r s).re.expected = s.re.expected ∧ (ackAttempt smp r s).re.rseq = s.re.rseq := by
  obtain he | m := ackAttempt_move smp r s
  · rw [he]; exact ⟨rfl, rfl⟩
  · exact ⟨m.keeps_expected (by simp [hs]), (m.keeps_handled (by simp [hs])).2⟩

end

/-- Once the expected bit has been toggled, a datagram with the bytes of a new frame is a duplicate (20_memory.md R70,
R202). -/
theorem InFrameClass.dup_of_match {e : Bit} {d d' : Datagram} (h : InFrameClass e d .dataMatch)
    (hk : rxKept d' = rxKept d) : InFrameClass (e ^^^ 1#1) d' .dataDup := by
  obtain ⟨h4, h1, h80, hb⟩ := h
  have hlen : min 84 d'.length = min 84 d.length := by rw [← rxKept_length, ← rxKept_length, hk]
  refine ⟨by omega, ?_⟩
  rw [hk]
  exact ⟨h1, h80, (bit_eq_iff_ne_flip _ _).mp hb⟩

/-- Settles O58: the delivery toggles the bit that the frame had, and the acknowledgment keeps it, so the copy is in the
class of the duplicates. -/
theorem secondCopyIsDuplicate : Obligations.SecondCopyIsDuplicate := by
  intro s1 s2 s3 s4 d d' k r r' smp i keep q hw1 hx2 hd2 hx3 hx4 hw4 hk hdel
  obtain ⟨hnew, q1, h2⟩ := exec_frameRow_taken (k := .dataMatch) hx2 (by rw [hd2, hw1]; decide)
  have h3 : HandsOver s2 s3 := Host.Outcome.next.inj hx3 ▸ deliverPayload_handsOver r hd2
  have h4 : s4.re.expected = s3.re.expected ∧ s4.re.rseq = s3.re.rseq :=
    Host.Outcome.next.inj hx4 ▸ ackAttempt_keeps smp r' h3.state
  have hexp : s4.re.expected = s1.re.expected ^^^ 1#1 := by rw [h4.1, h3.expected, h2]; rfl
  have hdup : InFrameClass s4.re.expected d' .dataDup := hexp ▸ hnew.dup_of_match hk
  refine ⟨_, next_eq_of_eq (reRecv_of_delivered hw4 hdel hdup), rfl, rfl, rfl, rfl, rfl, ?_⟩
  calc seqField (rxKept d') = seqField (rxKept d) := congrArg seqField hk
    _ = s2.re.rseq := by rw [h2]; rfl

end Sys2Proof.Machine
end

section
/-! PROOFS. The delivered stream and the expected bit in every step (43_receiver.md R203, R207; logs 12 and 23): RE's
delivery, the begin of a session and a reset are the only steps that touch them, and the sink changes with a delivery or
when a new one is attached. -/

namespace Sys2Proof.Machine

/-! ### The stream of RE's session -/

/-- What can become of RE's session where RE makes no move itself: it stands, one begins with an empty stream
(45_host_commands.md R254), or a reset ends it (R256, 70_reset_and_hazards.md R310). -/
inductive StreamOutside (s t : State) : Prop
  | kept (hst : t.re.state = s.re.state) (he : t.re.expected = s.re.expected) (hd : t.delivered = s.delivered)
  | started (h : reStartable s.re.state = true) (hst : t.re.state = .wait) (he : t.re.expected = 0#1) (hd : t.delivered = [])
  | reset (hst : t.re.state = .idle) (he : t.re.expected = 0#1) (hd : t.delivered = [])

section
variable {s t : State}

/-- A write to a configuration register leaves the expected bit, the stream and the sink (R258). -/
theorem writeCfg_keeps_stream (r : CfgReg) (v : Word) (s : State) :
    (writeCfg r v s).re.expected = s.re.expected ∧ (writeCfg r v s).delivered = s.delivered ∧
      (writeCfg r v s).sink = s.sink := by
  cases r
  case sIrq => exact ⟨rfl, rfl, rfl⟩
  case rIrq => exact ⟨rfl, rfl, rfl⟩
  all_goals
    unfold writeCfg
    dsimp only
    split <;> exact ⟨rfl, rfl, rfl⟩

theorem SeMove.streamOutside (m : SeMove s t) : StreamOutside s t := by
  obtain ⟨hre, hdel, -⟩ := m.keeps_rest
  exact .kept (by rw [hre]) (by rw [hre]) hdel

theorem HostMove.streamOutside (m : HostMove s t) (b : BusResp) : StreamOutside s (respond b t) := by
  cases m with
  | startsRe h => exact .started h rfl rfl rfl
  | resetsRe => exact .reset rfl rfl rfl
  | configures r v =>
    obtain ⟨hexp, hdel, -⟩ := writeCfg_keeps_stream r v s
    exact .kept (writeCfg_keeps_sessions r v s).2 hexp hdel
  | _ => exact .kept rfl rfl rfl

theorem EnvMove.streamOutside (m : EnvMove s t) : StreamOutside s t := by
  cases m with
  | loses c i => cases c <;> exact .kept rfl rfl rfl
  | resets => exact .reset rfl rfl rfl
  | _ => exact .kept rfl rfl rfl

/-- Everything a step can do to the stream. -/
theorem step_stream_cases (h : step s = .next t) : ReMove (popEvent s) t ∨ StreamOutside (popEvent s) t := by
  obtain rfl | m | m | ⟨b, u, rfl, m⟩ | m := step_moves h
  · exact .inr (.kept rfl rfl rfl)
  · exact .inr m.streamOutside
  · exact .inl m
  · exact .inr (m.streamOutside b)
  · exact .inr m.streamOutside

/-- A move of RE in R_DELIVER is the delivery. -/
theorem ReMove.handsOver (m : ReMove s t) (hd : s.re.state = .deliver) : HandsOver s t := by
  cases m with
  | delivers h r => exact deliverPayload_eq r h ▸ deliverPayload_handsOver r h
  | _ h => exact absurd (h.symm.trans hd) (by decide)

/-- RE moves while its session runs, and no move of RE resets it (10_state.md R27, R200). -/
theorem ReMove.within_session (m : ReMove s t) : reStartable s.re.state = false ∧ t.re.state ≠ .idle := by
  cases m with
  | _ h => simp [h, reStartable]

end

/-! ### The sink -/

section
variable {s t : State}

theorem HostMove.keeps_sink (m : HostMove s t) : t.sink = s.sink := by
  cases m with
  | configures r v => exact (writeCfg_keeps_stream r v s).2.2
  | _ => rfl

/-- An instruction changes the sink by a delivery only (20_memory.md R67). -/
theorem exec_sink_cases {i : Instr} (h : exec i s = .next t) :
    t.sink = s.sink ∨ (s.re.state = .deliver ∧ t.re.state = .ack) := by
  obtain rfl | m | m | ⟨b, u, rfl, m⟩ := exec_moves h
  · exact .inl rfl
  · obtain ⟨-, -, hsink, -⟩ := m.keeps_rest
    exact .inl hsink
  · by_cases hd : s.re.state = .deliver
    · exact .inr ⟨hd, (m.handsOver hd).state⟩
    · exact .inl (m.keeps_delivered_sink hd).2.1
  · exact .inl m.keeps_sink

/-- The step of a port word runs an instruction in the state without the word. -/
theorem exec_of_step_word {p : Port} {bs : List Byte} {rest : List Event} (hs : s.script = .word p bs :: rest)
    (h : step s = .next t) : ∃ i, exec i (popEvent s) = .next t := by
  cases hd : decode (ctxOf s) p bs with
  | ok i => exact ⟨i, by simpa only [step, fetch, hs, hd] using h⟩
  | error e => simp [step, fetch, hs, hd] at h

/-- Everything a step can do to the sink: a delivery, or a new one is attached (70_reset_and_hazards.md R316). -/
theorem step_sink_cases (h : step s = .next t) :
    t.sink = s.sink ∨ (s.re.state = .deliver ∧ t.re.state = .ack) ∨
      (s.script.head? = some .freshSink ∧ t.re = s.re ∧ t.sink = []) := by
  cases hs : s.script with
  | nil =>
    have ht : t = s := by simpa [step, fetch, hs] using h.symm
    exact .inl (by rw [ht])
  | cons e rest =>
    have moved {f : State → State} (hf : fetch s = .moved (f (popEvent s))) : t = f (popEvent s) :=
      Host.Outcome.next.inj (h.symm.trans (by rw [step, hf]))
    cases e with
    | word p bs =>
      obtain ⟨i, hi⟩ := exec_of_step_word hs h
      exact (exec_sink_cases hi).imp_right .inl
    | lose c i =>
      have ht := moved (f := loseMove c i) (by rw [fetch, hs])
      exact .inl (by rw [ht]; cases c <;> rfl)
    | hardReset => exact .inl (by rw [moved (f := hardReset) (by rw [fetch, hs])]; rfl)
    | emptyChannels => exact .inl (by rw [moved (f := emptyChannelsMove) (by rw [fetch, hs])]; rfl)
    | freshSink =>
      have ht := moved (f := freshSinkMove) (by rw [fetch, hs])
      exact .inr (.inr ⟨rfl, by rw [ht]; rfl, by rw [ht]; rfl⟩)

end

/-- Settles O57: a delivery toggles the bit and extends the stream; any other move of RE leaves both, and outside RE's moves
the session stands, begins or is reset. -/
theorem expectedBitFlipsOnDelivery : Obligations.ExpectedBitFlipsOnDelivery := by
  refine fun s t h => ⟨?_, ?_, step_sink_cases h⟩
  · obtain m | ⟨-, he, hd⟩ | ⟨hs, hst, he, hd⟩ | ⟨hst, he, hd⟩ := step_stream_cases h
    · by_cases hdel : s.re.state = .deliver
      · have ho := m.handsOver hdel
        exact .inr (.inl ⟨hdel, ho.state, ho.expected, ho.accepted, _, ho.delivered, fun hi => hi.2.payloadOf hdel _,
          fun hw => (rxPayload_whole _ hw).2⟩)
      · exact .inl ⟨m.keeps_expected hdel, (m.keeps_delivered_sink hdel).1⟩
    · exact .inl ⟨he, hd⟩
    · exact .inr (.inr ⟨he, hd, .inr ⟨hs, hst⟩⟩)
    · exact .inr (.inr ⟨he, hd, .inl hst⟩)
  · intro hbegins
    obtain m | ⟨hst, -, -⟩ | ⟨-, -, -, hd⟩ | ⟨-, -, hd⟩ := step_stream_cases h
    · obtain ⟨hrun, hidle⟩ := m.within_session
      rcases hbegins with ⟨hs, -⟩ | ⟨-, ht⟩
      · exact absurd (hrun.symm.trans hs) (by decide)
      · exact absurd ht hidle
    · rcases hbegins with ⟨hs, ht⟩ | ⟨hs, ht⟩
      · rw [← popEvent_re, ← hst, ht] at hs; cases hs
      · exact absurd (hst.symm.trans ht) hs
    · exact hd
    · exact hd

end Sys2Proof.Machine
end

section
/-! PROOFS. The counters of the two engines (44_statistics.md R232 to R235). A step makes a move of the engine, which counts,
begins its session or resets it, with every counter at 0, or leaves its tally alone. -/

namespace Sys2Proof.Machine

/-! ### The tally of an engine in one step -/

/-- SE's tally stands: its counters, and the registers that their relations speak of (R234). -/
structure SeTallyKept (a b : Sender) : Prop where
  state : b.state = a.state
  seq : b.seq = a.seq
  generated : b.generated = a.generated
  txAttempts : b.txAttempts = a.txAttempts
  txOk : b.txOk = a.txOk
  dropped : b.dropped = a.dropped
  acked : b.acked = a.acked
  timeouts : b.timeouts = a.timeouts

/-- RE's tally stands: its counters, the registers that their relations speak of and the delivered stream (R235). -/
structure ReTallyKept (s t : State) : Prop where
  state : t.re.state = s.re.state
  expected : t.re.expected = s.re.expected
  accepted : t.re.accepted = s.re.accepted
  duplicates : t.re.duplicates = s.re.duplicates
  bytes : t.re.bytes = s.re.bytes
  ackTx : t.re.ackTx = s.re.ackTx
  ackDropped : t.re.ackDropped = s.re.ackDropped
  delivered : t.delivered = s.delivered

/-- All five RE counters are 0. -/
def reCountersZero (re : Receiver) : Prop :=
  re.accepted = 0#32 ∧ re.duplicates = 0#32 ∧ re.bytes = 0#32 ∧ re.ackTx = 0#32 ∧ re.ackDropped = 0#32

/-- What can become of SE's tally where SE makes no move itself: it stands, a session begins (45_host_commands.md R253), or a
reset ends it (R255, 70_reset_and_hazards.md R310). -/
inductive SeTallyOutside (a b : Sender) : Prop
  | kept (h : SeTallyKept a b)
  | started (ha : seRunning a.state = false) (hst : b.state = .read ∨ b.state = .notFound) (hq : b.seq = 0#1)
      (hz : seCountersZero b)
  | reset (hst : b.state = .idle) (hq : b.seq = 0#1) (hz : seCountersZero b)

/-- What can become of RE's tally where RE makes no move itself (R254, R256, R310). -/
inductive ReTallyOutside (s t : State) : Prop
  | kept (h : ReTallyKept s t)
  | started (ha : reStartable s.re.state = true) (hst : t.re.state = .wait) (he : t.re.expected = 0#1)
      (hz : reCountersZero t.re) (hd : t.delivered = [])
  | reset (hst : t.re.state = .idle) (he : t.re.expected = 0#1) (hz : reCountersZero t.re) (hd : t.delivered = [])

theorem SeTallyKept.refl (a : Sender) : SeTallyKept a a := ⟨rfl, rfl, rfl, rfl, rfl, rfl, rfl, rfl⟩

theorem SeTallyOutside.of_eq {a b : Sender} (h : b = a) : SeTallyOutside a b := .kept (h ▸ .refl a)

theorem ReTallyKept.of_eq {s t : State} (hre : t.re = s.re) (hd : t.delivered = s.delivered) : ReTallyKept s t := by
  constructor <;> simp only [hre, hd]

theorem ReTallyOutside.of_eq {s t : State} (hre : t.re = s.re) (hd : t.delivered = s.delivered) : ReTallyOutside s t :=
  .kept (.of_eq hre hd)

/-- The first state of a session of SE is a running one (10_state.md R27). -/
theorem seRunning_of_started {st : SeState} (h : st = .read ∨ st = .notFound) : seRunning st = true := by
  rcases h with rfl | rfl <;> rfl

/-- Ticks count nothing (42_sender.md R170). -/
theorem tickMany_keeps_tally (z : ZeroTimeout) (k : Nat) (se : Sender) : SeTallyKept se (tickMany z k se) := by
  obtain ⟨tmr, texp, he⟩ := tickMany_frame z k se
  rw [he]
  exact ⟨rfl, rfl, rfl, rfl, rfl, rfl, rfl, rfl⟩

theorem seCountersZero_atReset (buf : List Byte) (len : BitVec 7) : seCountersZero (Sender.atReset buf len) :=
  ⟨rfl, rfl, rfl, rfl, rfl, rfl⟩

theorem reCountersZero_atReset (buf : List Byte) (rlen rseq : Half) : reCountersZero (Receiver.atReset buf rlen rseq) :=
  ⟨rfl, rfl, rfl, rfl, rfl⟩

section
variable {s t : State}

/-- A write to a configuration register leaves both tallies (45_host_commands.md R258). -/
theorem writeCfg_keeps_tallies (r : CfgReg) (v : Word) (s : State) :
    SeTallyKept s.se (writeCfg r v s).se ∧ ReTallyKept s (writeCfg r v s) := by
  have same : SeTallyKept s.se s.se ∧ ReTallyKept s s := ⟨.refl _, .of_eq rfl rfl⟩
  cases r
  case sIrq => exact ⟨⟨rfl, rfl, rfl, rfl, rfl, rfl, rfl, rfl⟩, .of_eq rfl rfl⟩
  case rIrq => exact ⟨same.1, ⟨rfl, rfl, rfl, rfl, rfl, rfl, rfl, rfl⟩⟩
  all_goals
    unfold writeCfg
    dsimp only
    split
    · exact same
    · exact ⟨⟨rfl, rfl, rfl, rfl, rfl, rfl, rfl, rfl⟩, ⟨rfl, rfl, rfl, rfl, rfl, rfl, rfl, rfl⟩⟩

theorem HostMove.tallyOutside (m : HostMove s t) (b : BusResp) :
    SeTallyOutside s.se t.se ∧ ReTallyOutside s (respond b t) := by
  cases m with
  | inert => exact ⟨.of_eq rfl, .of_eq rfl rfl⟩
  | startsSe h st hst => exact ⟨.started h hst rfl ⟨rfl, rfl, rfl, rfl, rfl, rfl⟩, .of_eq rfl rfl⟩
  | startsRe h => exact ⟨.of_eq rfl, .started h rfl rfl ⟨rfl, rfl, rfl, rfl, rfl⟩ rfl⟩
  | resetsSe => exact ⟨.reset rfl rfl (seCountersZero_atReset _ _), .of_eq rfl rfl⟩
  | resetsRe => exact ⟨.of_eq rfl, .reset rfl rfl (reCountersZero_atReset _ _ _) rfl⟩
  | configures r v =>
    obtain ⟨hse, hre⟩ := writeCfg_keeps_tallies r v s
    exact ⟨.kept hse, .kept ⟨hre.state, hre.expected, hre.accepted, hre.duplicates, hre.bytes, hre.ackTx, hre.ackDropped,
      hre.delivered⟩⟩

theorem EnvMove.tallyOutside (m : EnvMove s t) : SeTallyOutside s.se t.se ∧ ReTallyOutside s t := by
  cases m with
  | loses c i => cases c <;> exact ⟨.of_eq rfl, .of_eq rfl rfl⟩
  | resets => exact ⟨.reset rfl rfl (seCountersZero_atReset _ _), .reset rfl rfl (reCountersZero_atReset _ _ _) rfl⟩
  | empties => exact ⟨.of_eq rfl, .of_eq rfl rfl⟩
  | attaches => exact ⟨.of_eq rfl, .of_eq rfl rfl⟩

/-- Everything a step can do to SE's tally. -/
theorem step_se_tally (h : step s = .next t) : SeMove (popEvent s) t ∨ SeTallyOutside s.se t.se := by
  obtain rfl | m | m | ⟨b, u, rfl, m⟩ | m := step_moves h
  · exact .inr (.of_eq rfl)
  · exact .inl m
  · exact .inr (.of_eq m.keeps_rest.1)
  · exact .inr (m.tallyOutside b).1
  · exact .inr m.tallyOutside.1

/-- Everything a step can do to RE's tally. -/
theorem step_re_tally (h : step s = .next t) : ReMove (popEvent s) t ∨ ReTallyOutside (popEvent s) t := by
  obtain rfl | m | m | ⟨b, u, rfl, m⟩ | m := step_moves h
  · exact .inr (.of_eq rfl rfl)
  · obtain ⟨hre, hd, -⟩ := m.keeps_rest
    exact .inr (.of_eq hre hd)
  · exact .inl m
  · exact .inr (m.tallyOutside b).2
  · exact .inr m.tallyOutside.2

end

/-! ### The relations of SE (R234) -/

/-- One more turns the parity. -/
theorem setWidth_one_succ (k : BitVec 32) : (k + 1#32).setWidth 1 = k.setWidth 1 ^^^ 1#1 := by
  rw [BitVec.setWidth_add _ _ (by decide)]
  generalize k.setWidth 1 = p
  revert p
  decide

section
variable {s t : State} {m : BitVec 32} {se a b : Sender}

/-- A session that is beginning, or a reset, leaves nothing counted. -/
theorem SeCounters.of_zero (hz : seCountersZero se) (hq : se.seq = 0#1)
    (hst : se.state = .idle ∨ se.state = .read ∨ se.state = .notFound) : SeCounters 0#32 se := by
  have ⟨hg, ha, ho, hd, hk, ht⟩ := hz
  have hout : se.state ≠ .send ∧ se.state ≠ .wait ∧ se.state ≠ .eot ∧ se.state ≠ .done := by
    rcases hst with h | h | h <;> simp [h]
  obtain ⟨hs, hw, he, hf⟩ := hout
  exact {
    attempts := fun _ => by simp [ha, ho, hd]
    inSend := fun h => absurd h hs
    outSend := fun _ _ => by simp [ha, hg, ht]
    open_ := by simp [hs, hw]
    closed := fun _ _ _ => by simp [hk, hg]
    seq := fun _ => by simp [hq, hk]
    ended := by simp [he, hf]
    start := fun _ => ⟨rfl, hz⟩ }

/-- In S_FAULT no relation is asked for. -/
theorem SeCounters.of_fault (h : se.state = .fault) : SeCounters m se := by
  constructor <;> simp [h]

/-- S_READ: every chunk framed so far is acknowledged, every attempt accounted for. -/
theorem seCounters_read_iff (h : se.state = .read) : SeCounters m se ↔
    se.txAttempts = se.txOk + se.dropped ∧ se.txAttempts = se.generated + se.timeouts + m ∧ se.acked = se.generated ∧
      se.seq = se.acked.setWidth 1 where
  mp c := ⟨c.attempts (by simp [h]), c.outSend (by simp [h]) (by simp [h]),
    c.closed (by simp [h]) (by simp [h]) (by simp [h]), c.seq (.inl h)⟩
  mpr := fun ⟨ha, hg, hk, hq⟩ => {
    attempts := fun _ => ha
    inSend := by simp [h]
    outSend := fun _ _ => hg
    open_ := by simp [h]
    closed := fun _ _ _ => hk
    seq := fun _ => hq
    ended := by simp [h]
    start := by simp [h] }

/-- S_SEND: a chunk is open and its next attempt is still to come. -/
theorem seCounters_send_iff (h : se.state = .send) : SeCounters m se ↔
    se.txAttempts = se.txOk + se.dropped ∧ se.txAttempts + 1#32 = se.generated + se.timeouts + m ∧
      se.acked + 1#32 = se.generated ∧ se.seq = se.acked.setWidth 1 where
  mp c := ⟨c.attempts (by simp [h]), c.inSend h, c.open_ (.inl h), c.seq (.inr (.inl h))⟩
  mpr := fun ⟨ha, hg, hk, hq⟩ => {
    attempts := fun _ => ha
    inSend := fun _ => hg
    outSend := by simp [h]
    open_ := fun _ => hk
    closed := by simp [h]
    seq := fun _ => hq
    ended := by simp [h]
    start := by simp [h] }

/-- S_WAIT: a chunk is open and its attempt is counted. -/
theorem seCounters_wait_iff (h : se.state = .wait) : SeCounters m se ↔
    se.txAttempts = se.txOk + se.dropped ∧ se.txAttempts = se.generated + se.timeouts + m ∧
      se.acked + 1#32 = se.generated ∧ se.seq = se.acked.setWidth 1 where
  mp c := ⟨c.attempts (by simp [h]), c.outSend (by simp [h]) (by simp [h]), c.open_ (.inr h), c.seq (.inr (.inr h))⟩
  mpr := fun ⟨ha, hg, hk, hq⟩ => {
    attempts := fun _ => ha
    inSend := by simp [h]
    outSend := fun _ _ => hg
    open_ := fun _ => hk
    closed := by simp [h]
    seq := fun _ => hq
    ended := by simp [h]
    start := by simp [h] }

/-- S_EOT and S_DONE: all is acknowledged, at the end of the chunk path or of the not-found path. -/
theorem seCounters_ended_iff (h : se.state = .eot ∨ se.state = .done) : SeCounters m se ↔
    se.txAttempts = se.txOk + se.dropped ∧ se.txAttempts = se.generated + se.timeouts + m ∧ se.acked = se.generated ∧
      (se.seq = se.acked.setWidth 1 ∨ (se.seq = 1#1 ∧ seCountersZero se)) := by
  have hst : se.state ≠ .fault ∧ se.state ≠ .send ∧ se.state ≠ .wait ∧ se.state ≠ .read ∧ se.state ≠ .idle ∧
      se.state ≠ .notFound := by
    rcases h with h | h <;> simp [h]
  obtain ⟨hf, hs, hw, hr, hi, hn⟩ := hst
  refine ⟨fun c => ⟨c.attempts hf, c.outSend hf hs, c.closed hf hs hw, c.ended h⟩, fun ⟨ha, hg, hk, hq⟩ => ?_⟩
  exact {
    attempts := fun _ => ha
    inSend := fun hx => absurd hx hs
    outSend := fun _ _ => hg
    open_ := by simp [hs, hw]
    closed := fun _ _ _ => hk
    seq := by simp [hr, hs, hw]
    ended := fun _ => hq
    start := by simp [hi, hn] }

/-- The relations speak of the tally only. -/
theorem SeTallyKept.keeps_counters (k : SeTallyKept a b) (c : SeCounters m a) : SeCounters m b := by
  constructor <;>
    simp only [seCountersZero, k.state, k.seq, k.generated, k.txAttempts, k.txOk, k.dropped, k.acked, k.timeouts]
  exacts [c.attempts, c.inSend, c.outSend, c.open_, c.closed, c.seq, c.ended, c.start]

/-! ### The count of mismatches -/

/-- A move of SE is made while its session runs, and resets nothing (10_state.md R27). -/
theorem SeMove.within_session (mv : SeMove s t) : seRunning s.se.state = true ∧ t.se.state ≠ .idle := by
  cases mv with
  | ticks k h => simp [(tickMany_keeps_tally _ k s.se).state, h, seRunning]
  | _ h => simp [h, seRunning]

/-- A move counts a mismatch where it leads from S_WAIT to S_SEND without a timeout (42_sender.md R166). -/
theorem SeMove.mismatchesAfter_eq (mv : SeMove s t) : mismatchesAfter m s.se t.se =
    if s.se.state = .wait ∧ t.se.state = .send ∧ t.se.timeouts = s.se.timeouts then m + 1#32 else m := by
  obtain ⟨hrun, hidle⟩ := mv.within_session
  exact if_neg (by simp [hrun, hidle])

/-- The count stands with the state register. -/
theorem mismatchesAfter_of_kept (hst : b.state = a.state) (hb : b.state ≠ .idle) : mismatchesAfter m a b = m := by
  rw [mismatchesAfter, if_neg (by simp [← hst, hb]), if_neg (by rw [← hst]; rintro ⟨hw, hs, -⟩; simp [hw] at hs)]

/-- A move of SE keeps the relations: it counts on both sides of each of them, or leaves the state that asks for it. -/
theorem SeMove.keeps_counters (mv : SeMove s t) (hi : SeInv s.se) (c : SeCounters m s.se) :
    SeCounters (mismatchesAfter m s.se t.se) t.se := by
  have hm := mv.mismatchesAfter_eq (m := m)
  cases mv with
  | readEnd h =>
    obtain ⟨ha, hg, hk, hq⟩ := (seCounters_read_iff h).mp c
    rw [hm, if_neg (by simp)]
    exact (seCounters_ended_iff (.inl rfl)).mpr ⟨ha, hg, hk, .inl hq⟩
  | chunk h =>
    obtain ⟨ha, hg, hk, hq⟩ := (seCounters_read_iff h).mp c
    rw [hm, if_neg (by simp [h])]
    exact (seCounters_send_iff rfl).mpr ⟨ha, by dsimp; linear_combination hg, by dsimp; rw [hk], hq⟩
  | dropped h | sent h =>
    obtain ⟨ha, hg, hk, hq⟩ := (seCounters_send_iff h).mp c
    rw [hm, if_neg (by simp)]
    exact (seCounters_wait_iff rfl).mpr ⟨by dsimp; linear_combination ha, hg, hk, hq⟩
  | ackHit h =>
    obtain ⟨ha, hg, hk, hq⟩ := (seCounters_wait_iff h).mp c
    rw [hm, if_neg (by simp)]
    exact (seCounters_read_iff rfl).mpr ⟨ha, hg, hk, by rw [setWidth_one_succ, ← hq]⟩
  | ackMiss h =>
    obtain ⟨ha, hg, hk, hq⟩ := (seCounters_wait_iff h).mp c
    rw [hm, if_pos ⟨h, rfl, rfl⟩]
    exact (seCounters_send_iff rfl).mpr ⟨ha, by dsimp; linear_combination hg, hk, hq⟩
  | expires h =>
    obtain ⟨ha, hg, hk, hq⟩ := (seCounters_wait_iff h).mp c
    rw [hm, if_neg (by simp)]
    exact (seCounters_send_iff rfl).mpr ⟨ha, by dsimp; linear_combination hg, hk, hq⟩
  | eotSent h =>
    obtain ⟨ha, hg, hk, hq⟩ := (seCounters_ended_iff (.inl h)).mp c
    rw [hm, if_neg (by simp)]
    exact (seCounters_ended_iff (.inr rfl)).mpr ⟨ha, hg, hk, hq⟩
  | noticeSent h =>
    obtain ⟨rfl, hz⟩ := c.start (.inr h)
    obtain ⟨hg, ha, ho, hd, hk, ht⟩ := hz
    rw [hm, if_neg (by simp)]
    refine (seCounters_ended_iff (.inl rfl)).mpr ⟨?_, ?_, ?_, .inr ⟨?_, hg, ha, ho, hd, hk, ht⟩⟩
    · simp [ha, ho, hd]
    · simp [ha, hg, ht]
    · simp [hk, hg]
    · simp [hi.notice h]
  | ticks k h =>
    have kept := tickMany_keeps_tally s.params.zeroTimeout k s.se
    rw [hm, if_neg (by simp [kept.state, h])]
    exact kept.keeps_counters c
  | _ => exact .of_fault rfl

end

/-- Settles O50: a move keeps the relations, a session begins and a reset ends with every counter at 0, and the relations
speak of the tally only. -/
theorem senderCountersAgree : Obligations.SenderCountersAgree := by
  intro s t m hi c h
  obtain mv | k | ⟨ha, hst, hq, hz⟩ | ⟨hst, hq, hz⟩ := step_se_tally h
  · exact mv.keeps_counters hi.1 c
  · by_cases hidle : t.se.state = .idle
    · obtain ⟨rfl, -⟩ := c.start (.inl (k.state ▸ hidle))
      rw [mismatchesAfter, if_pos (.inl hidle)]
      exact k.keeps_counters c
    · rw [mismatchesAfter_of_kept k.state hidle]
      exact k.keeps_counters c
  · rw [mismatchesAfter, if_pos (.inr ⟨ha, seRunning_of_started hst⟩)]
    exact .of_zero hz hq (.inr hst)
  · rw [mismatchesAfter, if_pos (.inl hst)]
    exact .of_zero hz hq (.inl hst)

/-! ### The relations of RE (R235) -/

section
variable {s t : State} {re : Receiver} {p : List Byte}

/-- A session that is beginning, or a reset, leaves nothing counted and nothing delivered. -/
theorem ReCounters.of_zero (hz : reCountersZero re) (he : re.expected = 0#1) (hst : re.state ≠ .ack) :
    ReCounters [] re := by
  obtain ⟨ha, hd, hb, hk, hn⟩ := hz
  exact ⟨fun h => absurd h hst, fun _ _ => by simp [ha, hd, hk, hn], fun _ => by simp [he, ha], by simp [hb]⟩

/-- The relations speak of the tally only. -/
theorem ReTallyKept.keeps_counters (k : ReTallyKept s t) (c : ReCounters s.delivered s.re) :
    ReCounters t.delivered t.re := by
  constructor <;>
    simp only [k.state, k.expected, k.accepted, k.duplicates, k.bytes, k.ackTx, k.ackDropped, k.delivered]
  exacts [c.inAck, c.outAck, c.expected, c.bytes]

/-- In R_FAULT only the count of the bytes is asked for. -/
theorem ReCounters.of_fault (h : re.state = .fault) (hb : re.bytes = BitVec.ofNat 32 p.length) : ReCounters p re := by
  constructor <;> simp [h, hb]

/-- A move of RE keeps the relations: it counts on both sides of each of them, or leaves the state that asks for it. -/
theorem ReMove.keeps_counters (mv : ReMove s t) (hi : ReInv s.re) (c : ReCounters s.delivered s.re) :
    ReCounters t.delivered t.re := by
  cases mv with
  | ended h | takesNew h =>
    exact ⟨by simp, fun _ _ => c.outAck (by simp [h]) (by simp [h]), fun _ => c.expected (by simp [h]), c.bytes⟩
  | takesDup h =>
    have ho := c.outAck (by simp [h]) (by simp [h])
    exact ⟨fun _ => by dsimp; linear_combination ho, by simp, fun _ => c.expected (by simp [h]), c.bytes⟩
  | delivers h r =>
    have ho := c.outAck (by simp [h]) (by simp [h])
    have he := c.expected (by simp [h])
    obtain ⟨hlen, -⟩ := hi.payloadOf h s.freeCtr
    refine ⟨fun _ => by dsimp; linear_combination ho, by simp, fun _ => ?_, ?_⟩
    · dsimp
      rw [setWidth_one_succ, he]
    · simp [c.bytes, hlen, BitVec.ofNat_add]
  | ackDropped h | acked h =>
    have ho := c.inAck h
    exact ⟨by simp, fun _ _ => by dsimp; linear_combination ho, fun _ => c.expected (by simp [h]), c.bytes⟩
  | _ => exact .of_fault rfl c.bytes

end

/-- Settles O51: a move keeps the relations, a session begins and a reset ends with every counter at 0 and an empty stream,
and the relations speak of the tally only. -/
theorem receiverCountersAgree : Obligations.ReceiverCountersAgree := by
  intro s t hi c h
  obtain mv | k | ⟨-, hst, he, hz, hd⟩ | ⟨hst, he, hz, hd⟩ := step_re_tally h
  · exact mv.keeps_counters hi.2 c
  · exact k.keeps_counters c
  · exact hd ▸ .of_zero hz he (by simp [hst])
  · exact hd ▸ .of_zero hz he (by simp [hst])

/-! ### The lifetime of the counters (R232) -/

/-- A counter of SE stands, or is raised by one while SE runs. -/
def SeRises (a b : Sender) : Prop :=
  ∀ c ∈ [(a.generated, b.generated), (a.txAttempts, b.txAttempts), (a.txOk, b.txOk), (a.dropped, b.dropped),
      (a.acked, b.acked), (a.timeouts, b.timeouts)],
    c.2 = c.1 ∨ (c.2 = c.1 + 1#32 ∧ seRunning a.state = true)

/-- A counter of RE stands, or is raised by one while RE runs, R_BYTES by RLEN with a delivery. -/
def ReRises (a b : Receiver) : Prop :=
  (∀ c ∈ [(a.accepted, b.accepted), (a.duplicates, b.duplicates), (a.ackTx, b.ackTx), (a.ackDropped, b.ackDropped)],
    c.2 = c.1 ∨ (c.2 = c.1 + 1#32 ∧ reRunning a.state = true)) ∧
  (b.bytes = a.bytes ∨ (b.bytes = a.bytes + a.rlen.setWidth 32 ∧ a.state = .deliver))

section
variable {s t : State} {a b : Sender}

theorem SeTallyKept.rises (k : SeTallyKept a b) : SeRises a b := by
  simp [SeRises, k.generated, k.txAttempts, k.txOk, k.dropped, k.acked, k.timeouts]

theorem ReTallyKept.rises (k : ReTallyKept s t) : ReRises s.re t.re := by
  simp [ReRises, k.accepted, k.duplicates, k.bytes, k.ackTx, k.ackDropped]

/-- A move of SE counts in a state in which SE runs. -/
theorem SeMove.rises (m : SeMove s t) : SeRises s.se t.se := by
  cases m with
  | ticks k h => exact (tickMany_keeps_tally _ k s.se).rises
  | _ h => simp [SeRises, h, seRunning]

/-- A move of RE counts in a state in which RE runs. -/
theorem ReMove.rises (m : ReMove s t) : ReRises s.re t.re := by
  cases m with
  | _ h => simp [ReRises, h, reRunning]

theorem not_reRunning_of_reStartable {st : ReState} (h : reStartable st = true) : reRunning st = false := by
  cases st <;> simp [reStartable, reRunning] at h ⊢

end

/-- Settles O52: a move counts while its engine runs, and outside the moves the tally stands or every counter is 0. -/
theorem countersOnlyRise : Obligations.CountersOnlyRise := by
  refine fun s t h => ⟨?_, ?_⟩
  · obtain m | k | ⟨ha, hst, -, hz⟩ | ⟨hst, -, hz⟩ := step_se_tally h
    · exact .inl m.rises
    · exact .inl k.rises
    · exact .inr ⟨hz, .inr ⟨ha, seRunning_of_started hst⟩⟩
    · exact .inr ⟨hz, .inl hst⟩
  · obtain m | k | ⟨ha, hst, -, hz, -⟩ | ⟨hst, -, hz, -⟩ := step_re_tally h
    · exact .inl m.rises
    · exact .inl k.rises
    · obtain ⟨hacc, hdup, hbytes, htx, hdrop⟩ := hz
      exact .inr ⟨hacc, hdup, hbytes, htx, hdrop, .inr ⟨not_reRunning_of_reStartable ha, hst⟩⟩
    · obtain ⟨hacc, hdup, hbytes, htx, hdrop⟩ := hz
      exact .inr ⟨hacc, hdup, hbytes, htx, hdrop, .inl hst⟩

end Sys2Proof.Machine
end

section
/-! PROOFS. The HOST's accesses (45_host_commands.md R250 to R258): what each offset reads as and decodes to, the effect of each
command and configuration write, and the frame that all accesses share. -/

namespace Sys2Proof.Machine

/-! ### Every access completes, and what it reaches (R250, R293) -/

/-- No instruction ends in a fault or a refusal: each meaning is a next state. -/
theorem exec_completes (i : Instr) (s : State) : ∃ t, exec i s = .next t := by
  cases i <;> exact ⟨_, rfl⟩

section
variable {s t : State}

/-- A configuration register belongs to one engine. -/
theorem writeCfg_keeps_an_engine (r : CfgReg) (v : Word) (s : State) :
    (writeCfg r v s).se = s.se ∨ (writeCfg r v s).re = s.re := by
  cases r
  case sIrq => exact .inr rfl
  case rIrq => exact .inl rfl
  case sCfg | sLoss | sSeed => exact .inr (by unfold writeCfg; dsimp only; split <;> rfl)
  case rCfg | rLoss | rSeed => exact .inl (by unfold writeCfg; dsimp only; split <;> rfl)

/-- An access reaches at most one engine. -/
theorem HostMove.keeps_an_engine (m : HostMove s t) : t.se = s.se ∨ t.re = s.re := by
  cases m with
  | inert | startsRe | resetsRe => exact .inl rfl
  | startsSe | resetsSe => exact .inr rfl
  | configures r v => exact writeCfg_keeps_an_engine r v s

/-- An access leaves the delivered stream, or ends it by acting on RE (log 12). -/
theorem HostMove.delivered_cases (m : HostMove s t) :
    t.delivered = s.delivered ∨ (t.delivered = [] ∧ t.se = s.se) := by
  cases m with
  | startsRe | resetsRe => exact .inr ⟨rfl, rfl⟩
  | configures r v =>
    obtain ⟨-, hdel, -⟩ := writeCfg_keeps_stream r v s
    exact .inl hdel
  | _ => exact .inl rfl

end

/-- Settles O23: an access makes one move of the HOST and responds, and each move has the frame. -/
theorem hostAccessFrame : Obligations.HostAccessFrame := by
  intro i s ha
  obtain ⟨t, hx⟩ := exec_completes i s
  obtain ⟨b, u, rfl, m⟩ := exec_host_moves ha hx
  obtain ⟨hchd, hcha, hscript, hparams⟩ := m.keeps_environment
  exact ⟨_, hx, hchd, hcha, m.keeps_sink, hparams, hscript, rfl, m.keeps_an_engine, m.delivered_cases⟩

/-! ### Reads (R251; 10_state.md R28) -/

section
variable {off : Word} {w : Width}

theorem admitted_of_aligned (ha : off.toNat % 4 = 0) (hi : off.toNat < 256) : admitted off .b4 = true :=
  decide_eq_true ⟨rfl, ha, hi⟩

theorem exec_csrRead_of_admitted (h : admitted off w = true) (s : State) :
    exec (.csrRead off w) s = .next { s with bus := some (.readOk (readAt s off.toNat)) } := by
  rw [exec, execCsrRead, h]
  rfl

theorem exec_roWrite_of_admitted (h : admitted off w = true) (v : Word) (s : State) :
    exec (.roWrite off w v) s = .next { s with bus := some .writeOk } := by
  rw [exec, execRoWrite, h]
  rfl

end

/-- Settles O11: an aligned offset of the window is admitted, and each offset of the table reads as its register. -/
theorem csrReadAnswersRegister : Obligations.CsrReadAnswersRegister := by
  refine fun s off v => ⟨fun ha hi => exec_csrRead_of_admitted (admitted_of_aligned ha hi) s, fun h => ?_⟩
  fin_cases h <;> exact exec_csrRead_of_admitted rfl s

/-! ### Accesses without an effect (R252; 20_memory.md R61) -/

/-- The offsets of the status, timeout, timer, LFSR and counter registers (10_state.md R28). -/
def readOnlyOffsets : List Word :=
  [0x010#32, 0x018#32, 0x01C#32, 0x020#32, 0x024#32, 0x028#32, 0x030#32, 0x034#32, 0x038#32, 0x03C#32, 0x040#32, 0x044#32,
    0x090#32, 0x098#32, 0x0A0#32, 0x0A4#32, 0x0A8#32, 0x0AC#32, 0x0B0#32]

/-- The offsets at which the map lists a register (R28). -/
def mappedOffsets : List Word :=
  [0x000#32, 0x004#32, 0x008#32, 0x00C#32, 0x010#32, 0x014#32, 0x018#32, 0x01C#32, 0x020#32, 0x024#32, 0x028#32, 0x030#32,
    0x034#32, 0x038#32, 0x03C#32, 0x040#32, 0x044#32, 0x080#32, 0x084#32, 0x088#32, 0x08C#32, 0x090#32, 0x094#32, 0x098#32,
    0x0A0#32, 0x0A4#32, 0x0A8#32, 0x0AC#32, 0x0B0#32]

theorem readOnlyOffsets_spec : ∀ off ∈ readOnlyOffsets, admitted off .b4 = true ∧ isWritable off.toNat = false := by
  intro off h
  fin_cases h <;> exact ⟨rfl, rfl⟩

theorem mem_mappedOffsets_of_csrAt {n : Nat} {r : Csr} : csrAt n = some r → BitVec.ofNat 32 n ∈ mappedOffsets := by
  unfold csrAt
  split <;> rintro ⟨⟩ <;> decide

section
variable {off : Word}

theorem csrAt_of_unmapped (h : off ∉ mappedOffsets) : csrAt off.toNat = none := by
  rw [Option.eq_none_iff_forall_ne_some]
  intro r hr
  exact h (by simpa using mem_mappedOffsets_of_csrAt hr)

theorem readAt_of_unmapped (h : off ∉ mappedOffsets) (s : State) : readAt s off.toNat = 0#32 := by
  rw [readAt, csrAt_of_unmapped h]

theorem isWritable_of_unmapped (h : off ∉ mappedOffsets) : isWritable off.toNat = false := by
  rw [isWritable, csrAt_of_unmapped h]

/-- A write to a register that is neither CTRL nor configuration, or to none, is RO_WRITE (log 10). -/
theorem decode_write_of_not_writable (h : isWritable off.toNat = false) (c : DecodeCtx) (v : Word) :
    decode c (.csrWrite (c.csrBase + off) .b4) (be32 v) = .ok (.roWrite off .b4 v) :=
  decodes_roWrite (by simp [wellFormed, h])

end

/-! ### Writes to a CTRL register (30_encoding.md R101, 45_host_commands.md R257) -/

/-- A field of one bit is that bit. -/
theorem extractLsb'_one_eq (v : Word) (i : Nat) : v.extractLsb' i 1 = BitVec.ofBool (v.getLsbD i) := by
  ext j hj
  obtain rfl : j = 0 := by omega
  simp

/-- S_CTRL stands at the base of the window. -/
theorem base_add_ctrlOffset_se (c : DecodeCtx) : c.csrBase + BitVec.ofNat 32 (ctrlOffset .se) = c.csrBase :=
  BitVec.add_zero _

section
variable {v : Word}

/-- With bit 1 set the write is SOFT_RESET, whatever bit 0 is. -/
theorem decodeCtrl_of_bit1 (h1 : v.getLsbD 1 = true) (e : Engine) :
    decodeCtrl e v = ctrlRow e (v.extractLsb' 2 30) 1#1 (v.extractLsb' 0 1) := by
  rw [decodeCtrl_eq, extractLsb'_one_eq v 1, h1]
  rfl

/-- With bit 1 clear bit 0 decides between START and no command. -/
theorem decodeCtrl_of_not_bit1 {b0 : Bool} (h1 : v.getLsbD 1 = false) (h0 : v.getLsbD 0 = b0) (e : Engine) :
    decodeCtrl e v = ctrlRow e (v.extractLsb' 2 30) 0#1 (BitVec.ofBool b0) := by
  rw [decodeCtrl_eq, extractLsb'_one_eq v 1, extractLsb'_one_eq v 0, h1, h0]
  rfl

theorem decode_ctrl_write {i : Instr} {e : Engine} (h : decodeCtrl e v = i) (c : DecodeCtx) :
    decode c (.csrWrite (c.csrBase + BitVec.ofNat 32 (ctrlOffset e)) .b4) (be32 v) = .ok i := by
  subst h
  exact (decode_csrWrite_at _ _ v).trans (by cases e <;> rfl)

end

/-- Settles O14: a register without a write, and an offset without a register, decode to RO_WRITE, which only responds, as
does CTRL_NOP. -/
theorem inertAccesses : Obligations.InertAccesses := by
  refine fun s off v c => ⟨fun h => ?_, fun ha hi h => ?_, fun h0 h1 => ⟨?_, ?_⟩, fun _ _ => rfl⟩
  · obtain ⟨hadm, hro⟩ := readOnlyOffsets_spec off h
    exact ⟨decode_write_of_not_writable hro c v, exec_roWrite_of_admitted hadm v s⟩
  · have hadm := admitted_of_aligned ha hi
    have hread := exec_csrRead_of_admitted hadm s
    rw [readAt_of_unmapped h] at hread
    exact ⟨decode_write_of_not_writable (isWritable_of_unmapped h) c v, exec_roWrite_of_admitted hadm v s, hread⟩
  · rw [← base_add_ctrlOffset_se]
    exact decode_ctrl_write (decodeCtrl_of_not_bit1 h1 h0 .se) c
  · exact decode_ctrl_write (decodeCtrl_of_not_bit1 h1 h0 .re) c

/-! ### START (R253, R254) -/

section
variable {s : State}

theorem startSe_of_not_running (h : seRunning s.se.state = false) : startSe s = { s with se := { s.se with
    generated := 0#32, txAttempts := 0#32, txOk := 0#32, dropped := 0#32, acked := 0#32, timeouts := 0#32
    seq := 0#1, cause := .none, tmr := 0#64, texp := false
    toSec := BitVec.ofNat 32 (timeoutMs s.se.toExp / 1000)
    toSub := BitVec.ofNat 10 (timeoutMs s.se.toExp % 1000)
    state := if s.se.srcMissing then .notFound else .read } } :=
  if_neg (by simp [h])

theorem startSe_of_running (h : seRunning s.se.state = true) : startSe s = s := if_pos h

theorem startRe_of_startable (h : reStartable s.re.state = true) : startRe s = { s with
    delivered := []
    re := { s.re with
      accepted := 0#32, duplicates := 0#32, bytes := 0#32, ackTx := 0#32, ackDropped := 0#32
      expected := 0#1, cause := .none, sinkErr := false, state := .wait } } :=
  if_pos h

theorem startRe_of_not_startable (h : reStartable s.re.state = false) : startRe s = s := if_neg (by simp [h])

end

theorem seRunning_eq_true_iff {st : SeState} : seRunning st = true ↔ ¬ (st = .idle ∨ st = .done ∨ st = .fault) := by
  rw [← seRunning_eq_false_iff, Bool.not_eq_false]

theorem reStartable_eq_true_iff {st : ReState} : reStartable st = true ↔ st = .idle ∨ st = .done ∨ st = .fault := by
  cases st <;> decide

/-- Settles O17: with bit 0 alone the write is S_START, which acts unless SE runs. -/
theorem startBeginsSenderSession : Obligations.StartBeginsSenderSession := by
  refine fun hi s => ⟨fun c v h0 h1 => ?_, fun hst => ?_, fun hst => ?_⟩
  · exact decode_ctrl_write (decodeCtrl_of_not_bit1 h1 h0 .se) c
  · rw [exec, execSStart, startSe_of_not_running (seRunning_eq_false_iff.mpr hst)]
    rfl
  · rw [exec, execSStart, startSe_of_running (seRunning_eq_true_iff.mpr hst)]
    rfl

/-- Settles O18: with bit 0 alone the write is R_START, which acts in the three states of rule R254. -/
theorem startBeginsReceiverSession : Obligations.StartBeginsReceiverSession := by
  refine fun hi s => ⟨fun c v h0 h1 => ?_, fun hst => ?_, fun hst => ?_⟩
  · exact decode_ctrl_write (decodeCtrl_of_not_bit1 h1 h0 .re) c
  · rw [exec, execRStart, startRe_of_startable (reStartable_eq_true_iff.mpr hst)]
    exact ⟨_, rfl, rfl, rfl, rfl, rfl, rfl, rfl, rfl, rfl, rfl⟩
  · have hno : reStartable s.re.state = false := by rwa [← reStartable_eq_true_iff, Bool.not_eq_true] at hst
    rw [exec, execRStart, startRe_of_not_startable hno]
    rfl

/-! ### SOFT_RESET (R255 to R257, 70_reset_and_hazards.md R310) -/

theorem seResetValues_atReset (buf : List Byte) (len : BitVec 7) : SeResetValues (Sender.atReset buf len) :=
  ⟨rfl, rfl, rfl, rfl, rfl, rfl, rfl, rfl, rfl, rfl, rfl, rfl, rfl, rfl, rfl, seCountersZero_atReset buf len⟩

theorem reResetValues_atReset (buf : List Byte) (rlen rseq : Half) : ReResetValues (Receiver.atReset buf rlen rseq) :=
  ⟨rfl, rfl, rfl, rfl, rfl, rfl, rfl, rfl, rfl, rfl, reCountersZero_atReset buf rlen rseq⟩

/-- Settles O20: either reset puts its engine at the values after reset, and bit 1 of the write decides. -/
theorem softResetRestoresResetValues : Obligations.SoftResetRestoresResetValues := by
  refine fun hi b0 s => ⟨?_, ?_, fun c v h1 => ⟨?_, ?_⟩⟩
  · exact ⟨_, rfl, seResetValues_atReset _ _, rfl, rfl, rfl, rfl, rfl, rfl, rfl, rfl⟩
  · exact ⟨_, rfl, reResetValues_atReset _ _ _, rfl, rfl, rfl, rfl, rfl, rfl, rfl⟩
  · rw [← base_add_ctrlOffset_se]
    exact decode_ctrl_write (decodeCtrl_of_bit1 h1 .se) c
  · exact decode_ctrl_write (decodeCtrl_of_bit1 h1 .re) c

/-! ### Configuration writes (R258) -/

/-- The clamp in natural arithmetic (10_state.md R32). -/
theorem clampLoss_eq (v : Word) : clampLoss v = BitVec.ofNat 17 (min (v.toNat % 2 ^ 17) 65536) := by
  have hp : (v.extractLsb' 0 17).toNat = v.toNat % 2 ^ 17 := by simp
  rw [clampLoss, ← hp]
  split
  case isTrue h =>
    have hge : 65536 ≤ (v.extractLsb' 0 17).toNat := Nat.le_of_lt h
    rw [Nat.min_eq_right hge]
  case isFalse h =>
    have hle : (v.extractLsb' 0 17).toNat ≤ 65536 := BitVec.not_lt.mp h
    rw [Nat.min_eq_left hle, BitVec.ofNat_toNat, BitVec.setWidth_eq]

theorem reRunning_eq_true_iff {st : ReState} : reRunning st = true ↔ st = .wait ∨ st = .deliver ∨ st = .ack := by
  cases st <;> decide

theorem exec_cfgWrite_of_eq {r : CfgReg} {v : Word} {s t : State} (h : writeCfg r v s = t) :
    exec (.cfgWrite r v) s = .next { t with bus := some .writeOk } := by
  rw [exec, execCfgWrite, h]
  rfl

section
variable {s : State} (v : Word)

/-- SE's configuration is stored while SE does not run. -/
theorem writeCfg_of_not_seRunning (h : seRunning s.se.state = false) :
    writeCfg .sCfg v s = { s with se := storeSCfg v s.se } ∧
    writeCfg .sLoss v s = { s with se := { s.se with lossP := clampLoss v } } ∧
    writeCfg .sSeed v s = { s with se := { s.se with
      seed := v.extractLsb' 0 16, lfsr := seedLfsr (v.extractLsb' 0 16) } } := by
  simp [writeCfg, h]

/-- While SE runs its configuration is locked. -/
theorem writeCfg_of_seRunning (h : seRunning s.se.state = true) :
    writeCfg .sCfg v s = s ∧ writeCfg .sLoss v s = s ∧ writeCfg .sSeed v s = s := by
  simp [writeCfg, h]

/-- RE's configuration is stored while RE does not run. -/
theorem writeCfg_of_not_reRunning (h : reRunning s.re.state = false) :
    writeCfg .rCfg v s = { s with re := { s.re with sampleExt := v.getLsbD 0 } } ∧
    writeCfg .rLoss v s = { s with re := { s.re with lossP := clampLoss v } } ∧
    writeCfg .rSeed v s = { s with re := { s.re with
      seed := v.extractLsb' 0 16, lfsr := seedLfsr (v.extractLsb' 0 16) } } := by
  simp [writeCfg, h]

/-- While RE runs its configuration is locked. -/
theorem writeCfg_of_reRunning (h : reRunning s.re.state = true) :
    writeCfg .rCfg v s = s ∧ writeCfg .rLoss v s = s ∧ writeCfg .rSeed v s = s := by
  simp [writeCfg, h]

end

/-- Settles O22: an engine that does not run stores the fields, one that runs is locked, and the enables of the interrupts are
stored always; each offset of the map decodes to its register. -/
theorem configurationWrites : Obligations.ConfigurationWrites := by
  refine fun v s => ⟨fun hst => ?_, fun hst => ?_, rfl, fun hst => ?_, fun hst => ?_, rfl, fun c p hp => ?_⟩
  · obtain ⟨hcfg, hloss, hseed⟩ := writeCfg_of_not_seRunning v (seRunning_eq_false_iff.mpr hst)
    exact ⟨exec_cfgWrite_of_eq hcfg, clampLoss_eq v ▸ exec_cfgWrite_of_eq hloss, exec_cfgWrite_of_eq hseed⟩
  · obtain ⟨hcfg, hloss, hseed⟩ := writeCfg_of_seRunning v (seRunning_eq_true_iff.mpr hst)
    exact ⟨exec_cfgWrite_of_eq hcfg, exec_cfgWrite_of_eq hloss, exec_cfgWrite_of_eq hseed⟩
  · have hno : reRunning s.re.state = false := by rwa [← reRunning_eq_true_iff, Bool.not_eq_true] at hst
    obtain ⟨hcfg, hloss, hseed⟩ := writeCfg_of_not_reRunning v hno
    exact ⟨exec_cfgWrite_of_eq hcfg, clampLoss_eq v ▸ exec_cfgWrite_of_eq hloss, exec_cfgWrite_of_eq hseed⟩
  · obtain ⟨hcfg, hloss, hseed⟩ := writeCfg_of_reRunning v (reRunning_eq_true_iff.mpr hst)
    exact ⟨exec_cfgWrite_of_eq hcfg, exec_cfgWrite_of_eq hloss, exec_cfgWrite_of_eq hseed⟩
  · have hoff : p.1 = BitVec.ofNat 32 (cfgOffset p.2) := by revert p; decide
    rw [hoff]
    exact decodes_cfgWrite p.2 v

end Sys2Proof.Machine
end

section
/-! PROOFS. Faults (60_exceptions.md R281 to R284). No instruction stops the machine: an engine's fault is a next state, and
only a move of that engine enters its FAULT state. -/

namespace Sys2Proof.Machine

/-! ### What a step answers -/

/-- The fetch finds no instruction only in a word that does not decode (30_encoding.md R100). -/
theorem exists_word_of_fetch_bad {s : State} {e : DecodeError} (h : fetch s = .bad e) :
    ∃ p bs rest, s.script = .word p bs :: rest ∧ decode (ctxOf s) p bs = .error e := by
  unfold fetch at h
  cases hs : s.script with
  | nil => rw [hs] at h; cases h
  | cons ev rest =>
    rw [hs] at h
    cases ev with
    | word p bs =>
      cases hd : decode (ctxOf s) p bs with
      | ok i => simp only [hd] at h; cases h
      | error e' =>
        simp only [hd] at h
        cases h
        exact ⟨p, bs, rest, rfl, hd⟩
    | lose c i => cases h
    | hardReset => cases h
    | emptyChannels => cases h
    | freshSink => cases h

/-- With no event left every engine waits (00_scope.md R12). -/
theorem step_of_script_nil {s : State} (hs : s.script = []) : step s = .next s := by
  rw [step, fetch, hs]

/-- A step answers a next state, or the fetch found a word that is no instruction. -/
theorem step_completes_or_fetch_bad (s : State) :
    (∃ t, step s = .next t) ∨ ∃ e, fetch s = .bad e ∧ step s = .refused (.undecodable e) := by
  unfold step
  cases hf : fetch s with
  | idle => exact .inl ⟨s, rfl⟩
  | moved t => exact .inl ⟨t, rfl⟩
  | instr i t => exact .inl (exec_completes i t)
  | bad e => exact .inr ⟨e, rfl, rfl⟩

/-- Settles O46: every meaning is a next state, so that a step without one has fetched an undecodable word. -/
theorem stepNeverFaults : Obligations.StepNeverFaults := by
  refine ⟨exec_completes, fun s => step_of_script_nil, fun s => (step_completes_or_fetch_bad s).imp_right ?_⟩
  rintro ⟨e, hf, hstep⟩
  obtain ⟨p, bs, rest, hs, hd⟩ := exists_word_of_fetch_bad hf
  exact ⟨p, bs, rest, e, hs, hd, hstep⟩

/-! ### How an engine enters its FAULT state -/

section
variable {s t : State}

/-- SE enters S_FAULT by a move of its own: a START leads to the first state of a session, a reset to IDLE. -/
theorem seMove_of_enters_fault (h : step s = .next t) (hs : s.se.state ≠ .fault) (ht : t.se.state = .fault) :
    SeMove (popEvent s) t := by
  obtain m | hkept | ⟨-, hst, -⟩ | ⟨hidle, -⟩ := step_se_cases h
  · exact m
  · exact absurd (hkept.state.symm.trans ht) hs
  · simp [ht] at hst
  · simp [ht] at hidle

/-- RE enters R_FAULT by a move of its own. -/
theorem reMove_of_enters_fault (h : step s = .next t) (hs : s.re.state ≠ .fault) (ht : t.re.state = .fault) :
    ReMove (popEvent s) t := by
  obtain m | hkept | ⟨-, hst⟩ | hidle := step_re_cases h
  · exact m
  · exact absurd (hkept.symm.trans ht) hs
  · simp [ht] at hst
  · simp [ht] at hidle

/-- A move of SE into S_FAULT raises a cause of the state it leaves (R281) and keeps SE.SEQ and the counters (R283), but for
the attempt, which is counted before TXD answers (42_sender.md R165). -/
theorem SeMove.fault_cases (m : SeMove s t) (ht : t.se.state = .fault) :
    ((s.se.state = .read ∧ t.se.cause = .payloadTooLarge) ∨
      ((s.se.state = .send ∨ s.se.state = .eot ∨ s.se.state = .notFound) ∧ t.se.cause = .txError) ∨
      (s.se.state = .wait ∧ (t.se.cause = .rxError ∨ t.se.cause = .malformedAck))) ∧
    t.se.seq = s.se.seq ∧ t.se.generated = s.se.generated ∧ t.se.txOk = s.se.txOk ∧ t.se.dropped = s.se.dropped ∧
    t.se.acked = s.se.acked ∧ t.se.timeouts = s.se.timeouts ∧
    t.se.txAttempts = if s.se.state = .send then s.se.txAttempts + 1#32 else s.se.txAttempts := by
  cases m with
  | oversize h | sendErr h | rxErr h | badAck h | eotErr h | noticeErr h => simp [h, raiseFault, loadFrame]
  | ticks k h => simp [(tickMany_keeps_session _ k s.se).state, h] at ht
  | _ => cases ht

/-- A move of RE into R_FAULT raises a cause of the state it leaves (R281) and keeps RE.EXPECTED and the counters (R283). -/
theorem ReMove.fault_cases (m : ReMove s t) (ht : t.re.state = .fault) :
    ((s.re.state = .wait ∧ (t.re.cause = .rxError ∨ t.re.cause = .malformedFrame)) ∨
      (s.re.state = .ack ∧ t.re.cause = .txError)) ∧
    t.re.expected = s.re.expected ∧ t.re.accepted = s.re.accepted ∧ t.re.duplicates = s.re.duplicates ∧
    t.re.bytes = s.re.bytes ∧ t.re.ackTx = s.re.ackTx ∧ t.re.ackDropped = s.re.ackDropped := by
  cases m with
  | rxErr h | malformed h | ackErr h => simp [h, raiseFault, rxLoad]
  | _ => cases ht

end

/-- Settles O54: only a move of the engine enters its FAULT state, the cause is that move's, and a move leaves the other
engine alone (R283). -/
theorem faultRecordsCause : Obligations.FaultRecordsCause := by
  refine fun s t h => ⟨fun hs ht => ?_, fun hs ht => ?_⟩
  · have m := seMove_of_enters_fault h hs ht
    obtain ⟨hcause, hkept⟩ := m.fault_cases ht
    exact ⟨hcause, m.keeps_rest.1, hkept⟩
  · have m := reMove_of_enters_fault h hs ht
    obtain ⟨hcause, hkept⟩ := m.fault_cases ht
    exact ⟨hcause, m.keeps_rest.1, hkept⟩

end Sys2Proof.Machine
end

section
/-! PROOFS. Reset (70_reset_and_hazards.md R310 to R312): the values after it, at State.reset and after a hard reset, and the
invariants that begin there. -/

namespace Sys2Proof.Machine

/-! ### The values after reset (R310, R312) -/

section
variable {s : State}

/-- An engine in IDLE has nothing pending, so its line is low (60_exceptions.md R286, R287). -/
theorem irqS_of_idle (h : s.se.state = .idle) : irqS s = false := by
  simp [irqS, seDoneIp, seFaultIp, h]

theorem irqR_of_idle (h : s.re.state = .idle) : irqR s = false := by
  simp [irqR, reDoneIp, reFaultIp, h]

theorem step_of_script_hardReset {rest : List Event} (hs : s.script = .hardReset :: rest) :
    step s = .next (hardReset { s with script := rest }) :=
  step_of_fetch_moved hs (by rw [fetch, hs])

end

/-- Settles O21: State.reset, SOFT_RESET and a hard reset put each engine at `atReset` of some buffer contents, in IDLE, where
the line is low; a hard reset reaches nothing else but the delivered stream. -/
theorem hardResetRestoresResetValues : Obligations.HardResetRestoresResetValues := by
  refine ⟨seResetValues_atReset _ _, reResetValues_atReset _ _ _, irqS_of_idle rfl, irqR_of_idle rfl, ?soft, ?hard⟩
  case soft =>
    intro hi b0 s
    obtain ⟨⟨t, ht, hse, hre, -⟩, ⟨u, hu, hre', hse', -⟩, -⟩ := softResetRestoresResetValues hi b0 s
    exact ⟨t, u, ht, hse, hre, hu, hre', hse'⟩
  case hard =>
    intro s rest hs
    exact ⟨_, step_of_script_hardReset hs, seResetValues_atReset _ _, reResetValues_atReset _ _ _, irqS_of_idle rfl,
      irqR_of_idle rfl, rfl, rfl, rfl, rfl, rfl, rfl⟩

/-! ### The invariants at reset (R310, R311) -/

theorem inv_reset : Inv State.reset :=
  ⟨.atReset List.length_replicate _, .atReset List.length_replicate _ _⟩

/-- Nothing has been sent (R312, log 12). -/
theorem wireInv_reset : WireInv State.reset :=
  ⟨List.forall_mem_nil _, List.forall_mem_nil _⟩

/-- No cause is recorded and no frame is being handled. -/
theorem noMalformed_reset : NoMalformed State.reset := by
  simp [NoMalformed, State.reset, Sender.atReset, Receiver.atReset]

/-- Settles O47: both engines are in IDLE with every counter at 0, and the channels and the stream are empty (log 12). -/
theorem resetIsWellKept : Obligations.ResetIsWellKept :=
  ⟨inv_reset, wireInv_reset, noMalformed_reset, .of_zero (seCountersZero_atReset _ _) rfl (.inl rfl),
    .of_zero (reCountersZero_atReset _ _ _) rfl (by decide)⟩

end Sys2Proof.Machine
end
